-- ==== Sys2Proof/Word.lean ====
section
/-!
DEFINITION. The byte of the host link and of the lane cells, and its plainest arithmetic.
-/

namespace Sys2Proof

/-- One byte of the host link (R152) or the value of one lane cell (R197). -/
abbrev Byte := BitVec 8

/-- The low byte of a number. -/
def byte (n : Nat) : Byte := BitVec.ofNat 8 n

/-- A two-byte field, sent low byte first (R152, R196). -/
def le16 (n : Nat) : List Byte := [byte n, byte (n / 256)]

end Sys2Proof
end

