-- ==== Sys2Proof/Syntax.lean ====
section
/-!
DEFINITION. The commands of the GZ-4L: one constructor for each row of spec/opcode_table.json, in the table's order, with what
the outside supplies with each (the levels of the bytes of a frame, the samples of a bit or a cell).
-/

namespace Sys2Proof

/-- A lane, 0 to 3. -/
abbrev LaneId := Fin 4

/-- A slot number on a lane, 0 to 31. -/
abbrev SlotId := Fin 32

/-- What the lane engine samples of `w` bit times (R25): one sample of every bit at its centre, and one a sixteenth of a bit
time before and after it. A bit is 1 where the line is recessive and 0 where it is dominant (DESIGN CHOICE, log
entry 19). -/
structure Samples (w : Nat) where
  early : BitVec w
  centre : BitVec w
  late : BitVec w
  deriving DecidableEq, Repr

/-- A frame of the host link, less its start byte, length and CRC, which follow from these (R152). -/
structure Frame where
  kind : Byte
  tag : Byte
  body : List Byte
  deriving DecidableEq, Repr

/-- The levels of one byte on HRX behind its falling edge, sampled at the centres of its bits (R153): the 8 data bits, the first received
as bit 0, and the stop bit as bit 8; 1 is high. -/
abbrev LinkLevels := BitVec 9

/-- The byte at which a frame in reception is discarded (R154): the length byte, or one behind it, with its levels. -/
structure DiscardedByte where
  isLength : Bool
  levels : LinkLevels
  deriving DecidableEq, Repr

/-- The commands. A request row carries the tag and the body of the frame that the request handler takes (its code is the
row's); an event row of a lane carries its lane. -/
inductive Instr where
  /-- POWER_ON_RESET, with the levels of HRATE1 (bit 1) and HRATE0 (bit 0) at its end (R164). -/
  | powerOnReset (hrate : BitVec 2)
  /-- PIN_RESET, with the levels of HRATE1 and HRATE0 at its end. -/
  | pinReset (hrate : BitVec 2)
  /-- GOOD_FRAME: the bytes of the frame after its start byte, from the length byte through the CRC. -/
  | goodFrame (bytes : List LinkLevels)
  /-- FRAME_DISCARD: the byte after the start byte at which the frame is discarded. -/
  | frameDiscard (found : DiscardedByte)
  /-- CRC_MISMATCH: the bytes of the frame after its start byte, from the length byte through the CRC. -/
  | crcMismatch (bytes : List LinkLevels)
  | frameGapTimeout
  | hostSilenceBegin
  | sendReady
  | sendReply
  | sendReport
  | frameEnd
  | unknownRequest (kind tag : Byte) (body : List Byte)
  | hello (tag : Byte) (body : List Byte)
  | softReset (tag : Byte) (body : List Byte)
  | linkReset (tag : Byte) (body : List Byte)
  | readLinkStatus (tag : Byte) (body : List Byte)
  | setSilenceLimit (tag : Byte) (body : List Byte)
  | configLane (tag : Byte) (body : List Byte)
  | laneStart (tag : Byte) (body : List Byte)
  | laneHalt (tag : Byte) (body : List Byte)
  | laneSleep (tag : Byte) (body : List Byte)
  | laneWake (tag : Byte) (body : List Byte)
  | readLaneStatus (tag : Byte) (body : List Byte)
  | clearCapture (tag : Byte) (body : List Byte)
  | defineSlot (tag : Byte) (body : List Byte)
  | clearSlot (tag : Byte) (body : List Byte)
  | writeSlot (tag : Byte) (body : List Byte)
  | readSlot (tag : Byte) (body : List Byte)
  | setFailsafe (tag : Byte) (body : List Byte)
  | schedOpen (tag : Byte) (body : List Byte)
  | schedAdd (tag : Byte) (body : List Byte)
  | schedCommit (tag : Byte) (body : List Byte)
  | schedDiscard (tag : Byte) (body : List Byte)
  | readSchedule (tag : Byte) (body : List Byte)
  | sendOnce (tag : Byte) (body : List Byte)
  | withdraw (tag : Byte) (body : List Byte)
  | routeSet (tag : Byte) (body : List Byte)
  | routeClear (tag : Byte) (body : List Byte)
  | readRoutes (tag : Byte) (body : List Byte)
  | reportCredit (tag : Byte) (body : List Byte)
  | reportAck (tag : Byte) (body : List Byte)
  | gapWaitComplete (lane : LaneId)
  | callComplete (lane : LaneId)
  | responseTimeout (lane : LaneId)
  /-- TAG_CELL_RECEIVED: the samples of the 8 data bits (bits 0 to 7) and of the stop bit (bit 8). -/
  | tagCellReceived (lane : LaneId) (cell : Samples 9)
  | headerCellReceived (lane : LaneId) (cell : Samples 9)
  | dataCellReceived (lane : LaneId) (cell : Samples 9)
  | checkCellReceived (lane : LaneId) (cell : Samples 9)
  | gapTimeout (lane : LaneId)
  /-- PENDING_WINDOW_END, with the samples of the pending window's bit time. -/
  | pendingWindowEnd (lane : LaneId) (window : Samples 1)
  | publishComplete (lane : LaneId)
  /-- READBACK_ERROR: how many further bits were read back as sent before the mismatched one, and the samples of that one. -/
  | readbackError (lane : LaneId) (ahead : Nat) (read : Samples 1)
  | stuckFault (lane : LaneId)
  | pauseComplete (lane : LaneId)
  | sleepReleaseComplete (lane : LaneId)
  | sleepReleaseWake (lane : LaneId)
  /-- RESPONDER_WAKE, with the length in bit times of the dominant run that the recessive bit time now read has ended. -/
  | responderWake (lane : LaneId) (run : Nat)
  | wakePulseEnd (lane : LaneId)
  | wakeSettleComplete (lane : LaneId)
  | recoveryQuietComplete (lane : LaneId)
  /-- FRAME_START_BYTE: a byte on HRX while the receiver hunts, by its levels. The row by itself is the start byte, 0xC3 with a high stop
  bit (R152). -/
  | frameStartByte (levels : LinkLevels := 1#1 ++ 0xC3#8)
  /-- RESPONSE_START_BIT: a falling edge while a cell of a response is awaited, with the samples of its start bit. -/
  | responseStartBit (lane : LaneId) (start : Samples 1)
  /-- DOMINANT_BIT_TIME: the samples of one bit time of the lane, from which the engine takes its level (R25, R26). -/
  | dominantBitTime (lane : LaneId) (bit : Samples 1)
  deriving DecidableEq, Repr

end Sys2Proof
end

