-- ==== Sys2Proof/Decode.lean ====
section
/-!
DEFINITION. Reading and forming what stands on the wires: the host-link frame and its CRC-16 (R152, R154), the lane cells and
their CRC-8 (R31, R35 to R37, R197), the samples of a bit (R25), and the entry byte of a schedule (Request bodies, R196).
No row of spec/opcode_table.json gives a command any bits, so `decodeTableWord` reads none.
-/

namespace Sys2Proof

/-- The command that a word of the opcode table spells: no row of the table gives bits, so no word spells one. -/
def decodeTableWord (_nbits _w : Nat) : Option Instr := none

/-! ## The host-link frame -/

/-- One byte taken into the CRC-16 of R152, most significant bit first: polynomial 0x1021, no final inversion. -/
def crc16Byte (crc : BitVec 16) (b : Byte) : BitVec 16 :=
  let shift (c : BitVec 16) : BitVec 16 := if c.msb then (c <<< 1) ^^^ 0x1021#16 else c <<< 1
  Nat.repeat shift 8 (crc ^^^ (b.zeroExtend 16 <<< 8))

/-- The CRC-16 of R152 over a list of bytes, from the initial value 0xFFFF. -/
def crc16 (bytes : List Byte) : BitVec 16 := bytes.foldl crc16Byte 0xFFFF#16

/-- A CRC-16 as the frame carries it, high byte first (R152). -/
def crcBytes (crc : BitVec 16) : List Byte := [byte (crc.toNat / 256), byte crc.toNat]

/-- The levels of a byte as a receiver samples them behind its start bit: its data bits, least significant first, and a high stop bit
(R152). -/
def linkLevels (b : Byte) : LinkLevels := 1#1 ++ b

/-- The byte that the levels behind a falling edge form; none for a bad byte, whose stop bit reads low (R153). -/
def linkByte (levels : LinkLevels) : Option Byte := if levels.msb then some (levels.truncate 8) else none

/-- The bytes that a run of levels forms; none where one of them is a bad byte (R153). -/
def readBytes : List LinkLevels → Option (List Byte)
  | [] => some []
  | levels :: rest =>
    match linkByte levels, readBytes rest with
    | some b, some bs => some (b :: bs)
    | _, _ => none

/-- What the length byte of a frame covers: kind, tag and body (R152). -/
def Frame.content (f : Frame) : List Byte := f.kind :: f.tag :: f.body

/-- The bytes of a frame after its start byte: length, kind, tag, body and CRC-16 (R152). -/
def Frame.tail (f : Frame) : List Byte :=
  let covered := byte f.content.length :: f.content
  covered ++ crcBytes (crc16 covered)

/-- The bytes of a frame on the line (R152). -/
def Frame.bytes (f : Frame) : List Byte := 0xC3#8 :: f.tail

/-- The levels of a byte on HRX or HTX in the order of time: a low start bit, the data bits, least significant first, and a high stop bit;
true is high (R152). -/
def byteBits (b : Byte) : List Bool := false :: (List.range 9).map (linkLevels b).getLsbD

/-- The levels of a whole frame on the line, in the order of time (R152). -/
def Frame.bits (f : Frame) : List Bool := f.bytes.flatMap byteBits

/-- A length byte that a frame may carry (R152, R154). -/
def lengthByteOk (b : Byte) : Bool := 2 ≤ b.toNat && b.toNat ≤ 66

/-- Splits the bytes after a start byte into what the CRC covers and the two CRC bytes; none where the length byte is outside
2 to 66 or the bytes are not as many as it announces. -/
def splitFrame (bytes : List Byte) : Option (List Byte × List Byte) :=
  match bytes with
  | [] => none
  | len :: rest =>
    if lengthByteOk len && rest.length == len.toNat + 2 then
      some (len :: rest.take len.toNat, rest.drop len.toNat)
    else none

/-- The frame that the bytes after a start byte are, where they form a good frame (R154, R155). -/
def parseFrame (bytes : List Byte) : Option Frame :=
  match splitFrame bytes with
  | some (_ :: kind :: tag :: body, crc) =>
    if crc = crcBytes (crc16 (byte (body.length + 2) :: kind :: tag :: body)) then some ⟨kind, tag, body⟩ else none
  | _ => none

/-- Bytes after a start byte that are a whole frame but for a CRC-16 that does not match (R154). -/
def crcFails (bytes : List Byte) : Bool := (splitFrame bytes).isSome && (parseFrame bytes).isNone

/-- The codes of the Request Catalogue (R171). -/
def requestCodes : List Byte :=
  [0x01, 0x02, 0x03, 0x04, 0x05, 0x10, 0x11, 0x12, 0x13, 0x14, 0x15, 0x16, 0x20, 0x21, 0x22, 0x23, 0x24, 0x28, 0x29, 0x2A, 0x2B,
   0x2C, 0x30, 0x31, 0x34, 0x35, 0x36, 0x38, 0x39]

/-! ## Bits and cells of a lane -/

/-- The levels of bit times from their samples: with the filter on, the majority of the three; with it off, the sample at the
centre (R25). -/
def Samples.levels {w : Nat} (filter : Bool) (s : Samples w) : BitVec w :=
  if filter then (s.early &&& s.centre) ||| (s.centre &&& s.late) ||| (s.early &&& s.late) else s.centre

/-- Whether a single bit time reads dominant. -/
def Samples.dominant (filter : Bool) (s : Samples 1) : Bool := s.levels filter == 0#1

/-- The value of a received cell: its eight data bits, the first received the least significant (R33, R197). -/
def cellValue (levels : BitVec 9) : Byte := levels.truncate 8

/-- Whether the stop bit of a received cell reads dominant (R33). -/
def cellStopDominant (levels : BitVec 9) : Bool := !levels.msb

/-- The ten levels of a received cell in the order of time, its dominant start bit first; true is recessive. -/
def cellBits (levels : BitVec 9) : List Bool := false :: (List.range 9).map levels.getLsbD

/-- The levels of nine bit times taken one by one, the first of them as bit 0. -/
def levelsOf (bits : List Bool) : BitVec 9 := BitVec.ofNat 9 (bits.foldr (fun b n => b.toNat + 2 * n) 0)

/-- The ten levels of a cell that is sent: a dominant start bit, eight data bits, the least significant first, and a recessive stop bit
(Terms; R41, R197). -/
def cellLevels (v : Byte) : List Bool := cellBits (1#1 ++ v)

/-- The call marker: dominant for 12 bit times, then recessive for 1 (R30). -/
def markerLevels : List Bool := List.replicate 12 false ++ [true]

/-- How many recessive bits stand at the end of what has been sent. -/
def recessiveTail (levels : List Bool) : Nat := (levels.reverse.takeWhile id).length

/-- How many bit times at the end of a received cell stand at the level of its stop bit. -/
def cellEndRun (levels : BitVec 9) : Nat := ((cellBits levels).reverse.takeWhile (· == levels.msb)).length

/-- The value of a call or tag cell for a number 0 to 31, with its check value (R31, R35, R197). -/
def numberCell (n : Nat) : Byte := byte (n % 32 + 32 * ((n * 5 + 3) % 8))

/-- The tag that a tag cell carries, where its check value matches and it is not 0 (R35). -/
def tagOfCell (cell : Byte) : Option (BitVec 5) :=
  let n := cell.toNat % 32
  if n ≠ 0 ∧ cell.toNat / 32 = (n * 5 + 3) % 8 then some (BitVec.ofNat 5 n) else none

/-- The value of a header cell: length, attention, and the complement of the lowest three bits of the length (R36, R197). -/
def headerCell (length : Nat) (attention : Bool) : Byte :=
  byte (length % 16 + 16 * attention.toNat + 32 * (7 - length % 8))

/-- The length and attention flag of a header cell that passes the header check and carries a length of 0 to 12
(the first two steps of R36). -/
def headerOfCell (cell : Byte) : Option (Nat × Bool) :=
  let n := cell.toNat % 16
  if cell.toNat / 32 = 7 - n % 8 ∧ n ≤ 12 then some (n, cell.getLsbD 4) else none

/-- One cell value taken into the CRC-8 of R37, most significant bit first: x^8 + x^4 + x^3 + x^2 + 1, no final inversion. -/
def crc8Byte (crc : Byte) (b : Byte) : Byte :=
  let shift (c : Byte) : Byte := if c.msb then (c <<< 1) ^^^ 0x1D#8 else c <<< 1
  Nat.repeat shift 8 (crc ^^^ b)

/-- The CRC-8 of R37 over the cells that follow the call of a slot: the initial value is 0xFF XOR the slot number. -/
def crc8 (slot : SlotId) (cells : List Byte) : Byte := cells.foldl crc8Byte (0xFF#8 ^^^ byte slot.val)

/-- The cells that the concentrator sends after its call of a published slot: header with attention 0, data and check cell
(R40, R45, R51). -/
def publishCells (slot : SlotId) (data : List Byte) : List Byte :=
  let covered := headerCell data.length false :: data
  covered ++ [crc8 slot covered]

end Sys2Proof
end

