-- ==== Sys2Proof/Config.lean ====
section
/-!
DEFINITION. What the manual leaves to the part: the revision byte, which the manual names and gives no value.
-/

namespace Sys2Proof

/-- The part revision that READY (R164) and HELLO (R172) carry. The manual gives it no value, so it is a constant without a
body: every statement holds whatever it is (log entry 2). -/
opaque Config.revision : Byte

end Sys2Proof
end

