-- ==== Sys2Proof/Machine/State.lean ====
section
/-!
DEFINITION. The state of the GZ-4L, block by block as the manual gives it, its value right after a power-on reset, and the
reasons for which a command does not run.
-/

namespace Sys2Proof.Machine

open Sys2Proof

/-! ## Names -/

/-- The outcomes of a transaction (R51, R52; Codes of chapter 11). -/
inductive TxOutcome where
  | done | noResponse | headerError | lengthMismatch | tagError | checkError | framingError | gapTimeout | readbackError
  | lineStuck
  deriving DecidableEq, Repr

/-- The outcome with which a one-shot completes (R99). -/
inductive Completion where
  | ended (o : TxOutcome)
  | withdrawn
  | laneAsleep
  | laneFault
  deriving DecidableEq, Repr

/-- The condition of a lane (R115). -/
inductive Condition where
  | halted | running | halting | sleepPending | sleeping | waking | faulted
  deriving DecidableEq, Repr

/-- The resume condition of a lane (R115). -/
inductive Resume where
  | running | halted
  deriving DecidableEq, Repr

/-- The cause in a LANE_CHANGE report (R131). -/
inductive Cause where
  | request | busWake | stuck | readback | recovered | settled
  deriving DecidableEq, Repr

/-- The presence of a polled slot (R1). -/
inductive Presence where
  | present | absent
  deriving DecidableEq, Repr

/-- The report mode of a slot (R4). -/
inductive ReportMode where
  | silent | onChange | every
  deriving DecidableEq, Repr

/-- The mode of a route (R105, R111). -/
inductive RouteMode where
  | always | onChange
  deriving DecidableEq, Repr

/-- The cause that READY carries (R164). -/
inductive ResetCause where
  | power | pin | soft
  deriving DecidableEq, Repr

/-- The host link rate that HRATE1 and HRATE0 select (Signals; R164). -/
inductive HostRate where
  | baud115200 | baud230400 | baud460800 | baud921600
  deriving DecidableEq, Repr

/-- The bit rate of a lane (R24, R132). -/
inductive BitRate where
  | bps1200 | bps2400 | bps4800 | bps9600 | bps19200
  deriving DecidableEq, Repr

/-- The status of a reply (Codes of chapter 11). -/
inductive Status where
  | ok | unknownRequest | badLength | badValue | badLane | badState | undefinedSlot | wrongKind | inUse | noSpace | queueFull
  | routed | unknownHandle | tooLate | badAck | notOpen
  deriving DecidableEq, Repr

/-! ## The Slot Table (chapter 1) -/

/-- A slot, identified by its lane and its number together (R1). -/
structure SlotRef where
  lane : LaneId
  slot : SlotId
  deriving DecidableEq, Repr

/-- The length rule of a slot (R3). -/
inductive LengthRule where
  | exact (n : Nat)
  | upTo (n : Nat)
  deriving DecidableEq, Repr

/-- The fields of a POLLED slot (R1). -/
structure PolledRec where
  rule : LengthRule
  mode : ReportMode
  absenceLimit : Nat
  data : Option (List Byte)
  seq : Byte
  attention : Bool
  lastOutcome : Option TxOutcome
  missCount : Nat
  presence : Presence
  skipCount : Nat
  deriving DecidableEq, Repr

/-- The fields of a CONTENDED slot (R1). -/
structure ContendedRec where
  rule : LengthRule
  mode : ReportMode
  budget : Nat
  data : Option (List Byte)
  seq : Byte
  lastTag : Option (BitVec 5)
  attention : Bool
  lastOutcome : Option TxOutcome
  backlog : Bool
  deriving DecidableEq, Repr

/-- The fields of a PUBLISHED slot (R1). Its length rule is EXACT `length`; its report mode is SILENT and its attention 0 for as
long as it is PUBLISHED, so neither is stored. -/
structure PublishedRec where
  length : Nat
  data : Option (List Byte)
  seq : Byte
  lastOutcome : Option TxOutcome
  failsafe : Option (List Byte)
  failsafeActive : Bool
  deriving DecidableEq, Repr

/-- A slot record: the kind, and the fields that the kind provides (R1). -/
inductive SlotRecord where
  | undefined
  | polled (r : PolledRec)
  | contended (r : ContendedRec)
  | published (r : PublishedRec)
  deriving DecidableEq, Repr

/-- The fixed record of a sleep slot, with its last outcome (R2). -/
def sleepSlot (lastOutcome : Option TxOutcome) : SlotRecord :=
  .published { length := 1, data := some [0x5A#8], seq := 0, lastOutcome, failsafe := none, failsafeActive := false }

/-! ## The Route Table (chapter 6) -/

/-- A route record (R105). -/
structure Route where
  src : SlotRef
  dst : SlotRef
  mode : RouteMode
  deriving DecidableEq, Repr

/-! ## The Schedule Store (chapter 4) -/

/-- A schedule entry (R72). The divider is `2 ^ exponent`, as the entry byte carries it. -/
structure Entry where
  slot : SlotId
  exponent : Fin 5
  phase : Nat
  deriving DecidableEq, Repr

/-- The three schedules of a lane (R71): the builder is NONE or BUILDING with entries, the staged schedule absent or present. -/
structure Schedules where
  builder : Option (List Entry)
  staged : Option (List Entry)
  active : List Entry
  deriving DecidableEq, Repr

/-! ## The lane engines (chapters 2 to 5 and 7) -/

/-- The line state of a lane (R26). A receive position is a cell index and a bit index (R42). The last three fields are the model's own,
for what the rules count beside that table (log entry 30): `sent` is the number of the bit being sent, in CALL from the first bit of the
call marker on and in SEND from the header cell on (R41); `waited` is how many bit times the response timeout, the gap between cells, the
sleep release wait or the wake pulse has lasted (R32, R34, R120, R122); `cell` holds the levels taken so far behind the start bit of the
cell being received, and is none while no cell is (R33). -/
structure LineState where
  driving : Bool
  dominantRun : Nat
  recessiveRun : Nat
  drainOwed : Bool
  position : Option (Nat × Nat)
  sent : Nat
  waited : Nat
  cell : Option (List Bool)
  deriving DecidableEq, Repr

/-- The lane configuration record (R132). -/
structure LaneConfig where
  bitRate : BitRate
  sampleFilter : Bool
  responseTimeout : Nat
  gapLimit : Nat
  turnaroundGap : Nat
  probeInterval : Nat
  autoRecover : Bool
  wakePulse : Nat
  wakeSettle : Nat
  deriving DecidableEq, Repr

/-- The kind of a one-shot (R92). -/
inductive OneShotKind where
  | poll | publish
  deriving DecidableEq, Repr

/-- A record of the one-shot queue (R92). -/
structure OneShot where
  handle : Nat
  slot : SlotId
  kind : OneShotKind
  data : Option (List Byte)
  deriving DecidableEq, Repr

/-- Why a transaction runs (R46). -/
inductive Source where
  | scheduled | followUp | oneShot | sleepCall
  deriving DecidableEq, Repr

/-- The kind of the slot a transaction calls (R46). -/
inductive CallKind where
  | polled | contended | published
  deriving DecidableEq, Repr

/-- The phase of a transaction (R46). -/
inductive Phase where
  | gap | call | await | receive | send | window
  deriving DecidableEq, Repr

/-- The pending result of a transaction (R46). -/
inductive PendingResult where
  | notSampled | seen | notSeen
  deriving DecidableEq, Repr

/-- A received header that has passed its checks (R36, R46). -/
structure Header where
  length : Nat
  attention : Bool
  deriving DecidableEq, Repr

/-- The transaction record of a lane (R46). `checkMatched` is the result of the check cell of a contended response, which R50
has the engine keep through the pending window; R46's table has no line for it (DEDUCED, log entry 25). -/
structure Transaction where
  source : Source
  oneShot : Option (Nat × OneShotKind)
  slot : SlotId
  kind : CallKind
  phase : Phase
  allowance : Option Nat
  followUpsForbidden : Bool
  sendData : Option (List Byte)
  tag : Option (BitVec 5)
  header : Option Header
  data : List Byte
  pendingResult : PendingResult
  checkMatched : Bool
  deriving DecidableEq, Repr

/-- The lane counts (R54). -/
structure LaneCounts where
  good : Nat
  silent : Nat
  faulty : Nat
  deriving DecidableEq, Repr

/-- A capture record (R56). -/
structure CaptureRecord where
  outcome : TxOutcome
  slot : SlotId
  cell : Nat
  bit : Nat
  round : BitVec 16
  deriving DecidableEq, Repr

/-- The round state of a lane (R78). -/
structure RoundState where
  counter : BitVec 16
  position : Nat
  worked : Bool
  pause : Option Nat
  streak : Nat
  deriving DecidableEq, Repr

/-- One lane engine, with its schedules of the Schedule Store. The capture is armed where it is none (R56). -/
structure Lane where
  condition : Condition
  resume : Resume
  recoveryArmed : Bool
  config : LaneConfig
  line : LineState
  transaction : Option Transaction
  oneShots : List OneShot
  counts : LaneCounts
  readbackRun : Nat
  capture : Option CaptureRecord
  faultsSince : Nat
  round : RoundState
  schedules : Schedules
  deriving DecidableEq, Repr

/-! ## The Report Queue (chapter 8) -/

/-- The fields of a SLOT_UPDATE beyond its lane and slot (R135). -/
structure Update where
  seq : Byte
  tag : Option (BitVec 5)
  attention : Bool
  backlog : Bool
  merged : Nat
  data : List Byte
  deriving DecidableEq, Repr

/-- A report record less its sequence number (R135). The lost kinds of REPORTS_LOST are the set as its layout holds it: bit
k - 1 for the report kind of code k (chapter 11). -/
inductive Report where
  | slotUpdate (ref : SlotRef) (u : Update)
  | slotPresence (ref : SlotRef) (presence : Presence)
  | laneChange (lane : LaneId) (old new : Condition) (cause : Cause)
  | faultCaptured (lane : LaneId) (record : CaptureRecord)
  | oneShotDone (lane : LaneId) (handle : Nat) (outcome : Completion) (tag : Option (BitVec 5)) (data : Option (List Byte))
  | scheduleSwapped (lane : LaneId) (round : BitVec 16)
  | hostSilence (begins : Bool)
  | reportsLost (count : Nat) (kinds : Byte)
  deriving DecidableEq, Repr

/-- A record in flight, with the sequence number it was sent under (R135, R143). -/
structure SentReport where
  seq : Nat
  report : Report
  deriving DecidableEq, Repr

/-- The Report Queue (R136): the in-flight prefix and the pending suffix, each oldest first, the lost count and the lost kinds. -/
structure ReportQueue where
  inFlight : List SentReport
  unsent : List Report
  lostCount : Nat
  lostKinds : Byte
  deriving DecidableEq, Repr

/-! ## The Host Link Interface (chapter 9) -/

/-- Whether the receiver is hunting or inside a frame (R153). -/
inductive Receiver where
  | hunting | insideFrame
  deriving DecidableEq, Repr

/-- A reply as it was made (R159): the tag and code of its request, a status, and the reply fields. -/
structure Reply where
  tag : Byte
  code : Byte
  status : Status
  fields : List Byte
  deriving DecidableEq, Repr

/-- An entry of the reply cache (R160); its tag, request code and cached reply stand in `reply`. -/
structure CacheEntry where
  bodyCrc : BitVec 16
  reply : Reply
  deriving DecidableEq, Repr

/-- The frame in transmission on HTX (R162). -/
inductive OutFrame where
  | ready (cause : ResetCause)
  | reply (r : Reply)
  | report (r : SentReport)
  deriving DecidableEq, Repr

/-- The silence timer (R168): stopped, or running with the units of 100 ms since its last restart. -/
inductive SilenceTimer where
  | stopped
  | running (elapsed : Nat)
  deriving DecidableEq, Repr

/-- The link counts (R167). -/
structure LinkCounts where
  framing : Nat
  crc : Nat
  overrun : Nat
  duplicate : Nat
  deriving DecidableEq, Repr

/-- The Host Link Interface. `handlerStopped` says that a SOFT_RESET is pending (R165); `ready` is the cause of a READY that
waits or is being sent (R164). -/
structure Hli where
  receiver : Receiver
  buffer : List Frame
  handlerStopped : Bool
  replies : List Reply
  cache : List CacheEntry
  transmitting : Option OutFrame
  ready : Option ResetCause
  counts : LinkCounts
  silenceLimit : Byte
  silenceTimer : SilenceTimer
  hostSilent : Bool
  credit : Nat
  nextReportSeq : Nat
  rate : HostRate
  deriving DecidableEq, Repr

/-! ## The part -/

/-- The state of the part, and the queue of the commands that wait to be taken, first in, first out (the model's own field). -/
structure State where
  slots : Vector (Vector SlotRecord 32) 4
  lanes : Vector Lane 4
  routes : Vector (Option Route) 16
  nextHandle : Nat
  reports : ReportQueue
  hli : Hli
  pending : List Instr
  deriving DecidableEq, Repr

/-- Why the block stops with a fault. -/
inductive Fault where
  /-- Raised by HEADER_CELL_RECEIVED where the record of the slot called is UNDEFINED or PUBLISHED, so that no length rule admits
  or refuses the length of a received header. R5 and R6 keep a slot that is called from being redefined, so no command brings
  the block there from reset. Safe: the block stops where the manual has no case. -/
  | noLengthRule
  deriving DecidableEq, Repr

/-- Why a command has no effect in a state. Every one but `notModelled` says that the command cannot come about in that state:
the manual gives the event no place there. All of them are safe: the block answers no next state (DESIGN CHOICE, log
entry 4). -/
inductive Refusal where
  /-- An instruction without a meaning; raised by no arm of `exec`. -/
  | notModelled (mnemonic : String)
  /-- FRAME_START_BYTE inside a frame: only a hunting receiver looks for a start byte (R153). -/
  | receiverInsideFrame
  /-- The end of a frame in reception while the receiver hunts (R153 to R155). -/
  | receiverHunting
  /-- GOOD_FRAME with bytes that are no good frame (R155). -/
  | notAGoodFrame
  /-- CRC_MISMATCH with bytes that are no whole frame with a wrong CRC (R154). -/
  | notACrcMismatch
  /-- FRAME_DISCARD for a byte with a high stop bit that is no length byte, or is one of 2 to 66 (R154). -/
  | byteWithoutFault
  /-- A request while the handler is stopped by SOFT_RESET (R157, R165). -/
  | handlerStopped
  /-- A request while the reply queue is full: the handler waits for a place (R157, R158). -/
  | replyQueueFull
  /-- A request whose frame is not the oldest in the receive buffer (R157). -/
  | notOldestFrame
  /-- UNKNOWN_REQUEST for a code that the Request Catalogue gives (R157, R171). -/
  | aCatalogueCode
  /-- HOST_SILENCE_BEGIN while the silence timer is stopped (R168, R169). -/
  | silenceTimerStopped
  /-- The start of a frame on HTX while one is in transmission (R162). -/
  | transmitterBusy
  /-- The start of a frame that the arbiter does not choose in this state (R162, R143). -/
  | notChosenByArbiter
  /-- FRAME_END with no frame in transmission (R162). -/
  | transmitterIdle
  /-- An event of a transaction on a lane that has none (R46). -/
  | noTransaction
  /-- An event of a transaction in a phase in which it cannot come about (R46, R48 to R51). -/
  | wrongPhase
  /-- SLEEP_RELEASE_COMPLETE or SLEEP_RELEASE_WAKE before the sleep call has ended: the release wait has not begun (R120). -/
  | noReleaseWait
  /-- WAKE_PULSE_END while no wake pulse is driven (R122). -/
  | noWakePulse
  /-- A response cell or a gap that is not the next in the order of R49 and R50, or a cell whose first bits were read otherwise. -/
  | wrongCell
  /-- READBACK_ERROR at a bit that the engine does not send in this phase (R41, R42). -/
  | bitNotSent
  /-- READBACK_ERROR at a bit that was read back as sent (R41). -/
  | bitAgrees
  /-- STUCK_FAULT or WAKE_SETTLE_COMPLETE while the wake pulse is driven: its bit times are not counted (R26, R43, R122). -/
  | lineDriven
  /-- STUCK_FAULT in CALL or SEND, where the runs count afresh at each release; in AWAIT, RECEIVE or WINDOW, or in the sleep release wait,
  where an earlier dominant bit time has already ended that phase or that wait (R64, R125). -/
  | stuckCannotArise
  /-- A line event in a lane condition that does not know it (R115). -/
  | wrongCondition
  /-- PAUSE_COMPLETE with no pause running (R81). -/
  | noPause
  /-- RESPONDER_WAKE with a run of 0 or of 30 and more bit times (R44, R123). -/
  | notAResponderRun
  deriving DecidableEq, Repr

/-! ## The state after reset -/

/-- The default lane configuration (R132). -/
def LaneConfig.default : LaneConfig :=
  { bitRate := .bps9600, sampleFilter := true, responseTimeout := 10, gapLimit := 3, turnaroundGap := 4, probeInterval := 8,
    autoRecover := true, wakePulse := 16, wakeSettle := 64 }

/-- A lane engine after reset (R26, R46, R54 to R57, R71, R78, R92, R115, R132). -/
def Lane.reset : Lane :=
  { condition := .halted, resume := .halted, recoveryArmed := false, config := .default
    line :=
      { driving := false, dominantRun := 0, recessiveRun := 0, drainOwed := false, position := none, sent := 0, waited := 0
        cell := none }
    transaction := none, oneShots := [], counts := { good := 0, silent := 0, faulty := 0 }, readbackRun := 0
    capture := none, faultsSince := 0
    round := { counter := 0, position := 0, worked := false, pause := none, streak := 0 }
    schedules := { builder := none, staged := none, active := [] } }

/-- The Host Link Interface after a reset with READY waiting for a cause (R150, R153, R156, R159, R160, R164, R167, R168). -/
def Hli.reset (rate : HostRate) (cause : ResetCause) : Hli :=
  { receiver := .hunting, buffer := [], handlerStopped := false, replies := [], cache := [], transmitting := none
    ready := some cause, counts := { framing := 0, crc := 0, overrun := 0, duplicate := 0 }, silenceLimit := 0
    silenceTimer := .stopped, hostSilent := false, credit := 0, nextReportSeq := 1, rate }

/-- The slot records of one lane after reset: the sleep slot with no last outcome, and 31 UNDEFINED records (R2, R7). -/
def resetSlots : Vector SlotRecord 32 := (Vector.replicate 32 SlotRecord.undefined).set 0 (sleepSlot none)

/-- The part after a reset with a given host link rate and cause of READY (R7, R93, R105, R136, R150). -/
def State.afterReset (rate : HostRate) (cause : ResetCause) (pending : List Instr) : State :=
  { slots := Vector.replicate 4 resetSlots
    lanes := Vector.replicate 4 Lane.reset
    routes := Vector.replicate 16 none
    nextHandle := 1
    reports := { inFlight := [], unsent := [], lostCount := 0, lostKinds := 0 }
    hli := Hli.reset rate cause
    pending }

/-- The part right after a power-on reset, with HRATE1 and HRATE0 low (the rate: DESIGN CHOICE, log entry 3) and no command waiting. -/
def State.reset : State := State.afterReset .baud115200 .power []

end Sys2Proof.Machine
end

