-- ==== Sys2Proof/Machine/Codes.lean ====
section
/-!
DEFINITION. The codes of chapter 11 and the layouts of the bodies that the part sends (R196).
-/

namespace Sys2Proof.Machine

open Sys2Proof

/-! ## Codes -/

def Status.code : Status → Byte
  | .ok => 0x00 | .unknownRequest => 0x01 | .badLength => 0x02 | .badValue => 0x03 | .badLane => 0x04 | .badState => 0x05
  | .undefinedSlot => 0x06 | .wrongKind => 0x07 | .inUse => 0x08 | .noSpace => 0x09 | .queueFull => 0x0A | .routed => 0x0B
  | .unknownHandle => 0x0C | .tooLate => 0x0D | .badAck => 0x0E | .notOpen => 0x0F

def TxOutcome.code : TxOutcome → Byte
  | .done => 0x00 | .noResponse => 0x01 | .headerError => 0x02 | .lengthMismatch => 0x03 | .tagError => 0x04
  | .checkError => 0x05 | .framingError => 0x06 | .gapTimeout => 0x07 | .readbackError => 0x08 | .lineStuck => 0x09

def Completion.code : Completion → Byte
  | .ended o => o.code | .withdrawn => 0x10 | .laneAsleep => 0x11 | .laneFault => 0x12

def Condition.code : Condition → Byte
  | .halted => 0 | .running => 1 | .halting => 2 | .sleepPending => 3 | .sleeping => 4 | .waking => 5 | .faulted => 6

/-- The condition that a resume condition names (R115). -/
def Resume.condition : Resume → Condition
  | .running => .running | .halted => .halted

def Cause.code : Cause → Byte
  | .request => 0 | .busWake => 1 | .stuck => 2 | .readback => 3 | .recovered => 4 | .settled => 5

def ResetCause.code : ResetCause → Byte
  | .power => 1 | .pin => 2 | .soft => 3

def ReportMode.code : ReportMode → Byte
  | .silent => 0 | .onChange => 1 | .every => 2

def Presence.code : Presence → Byte
  | .present => 0 | .absent => 1

def RouteMode.code : RouteMode → Byte
  | .always => 0 | .onChange => 1

def LengthRule.form : LengthRule → Byte
  | .exact _ => 0 | .upTo _ => 1

def LengthRule.bound : LengthRule → Nat
  | .exact n => n | .upTo n => n

/-- The code of a report kind. -/
def Report.kindCode : Report → Nat
  | .slotUpdate _ _ => 1 | .slotPresence _ _ => 2 | .laneChange _ _ _ _ => 3 | .faultCaptured _ _ => 4
  | .oneShotDone _ _ _ _ _ => 5 | .scheduleSwapped _ _ => 6 | .hostSilence _ => 7 | .reportsLost _ _ => 8

/-! ## Field conventions (R196) -/

/-- A flag or yes/no field. -/
def flag (b : Bool) : Byte := if b then 1 else 0

/-- A field that the slot's kind does not hold, an absent outcome, an absent schedule. -/
def absentByte : Byte := 0xFF#8

/-- A data length and the data: 0xFF alone where the data is absent. -/
def dataField : Option (List Byte) → List Byte
  | none => [absentByte]
  | some d => byte d.length :: d

/-- A tag field: 0 where the tag is absent. -/
def tagField : Option (BitVec 5) → Byte
  | none => 0
  | some t => t.zeroExtend 8

/-- An outcome field. -/
def outcomeField : Option TxOutcome → Byte
  | none => absentByte
  | some o => o.code

/-- The divider-phase byte of an entry (Request bodies). -/
def Entry.timing (e : Entry) : Byte := byte (e.exponent.val + 16 * e.phase)

/-- The two bytes of an entry. -/
def Entry.bytes (e : Entry) : List Byte := [byte e.slot.val, e.timing]

/-- The number of entries of a schedule that may be absent. -/
def countField : Option (List Entry) → Byte
  | none => absentByte
  | some es => byte es.length

/-- The two bytes of a route place. -/
def routePlace : Option Route → List Byte
  | none => [0, 0]
  | some r =>
    [byte (r.src.slot.val + 32 * r.src.lane.val + 128), byte (r.dst.slot.val + 32 * r.dst.lane.val) ||| (r.mode.code <<< 7)]

/-- The capture block of READ_LANE_STATUS and CLEAR_CAPTURE. -/
def captureBlock (capture : Option CaptureRecord) (faultsSince : Nat) : List Byte :=
  match capture with
  | none => [0, absentByte, absentByte, absentByte, absentByte, 0xFF#8, 0xFF#8, byte faultsSince]
  | some c => [1, c.outcome.code, byte c.slot.val, byte c.cell, byte c.bit] ++ le16 c.round.toNat ++ [byte faultsSince]

/-! ## Reply fields of the reads -/

/-- The reply fields of READ_SLOT (R184, reply table of chapter 11); `isDestination` says whether a route names the slot as
destination. -/
def slotFields (r : SlotRecord) (isDestination : Bool) : List Byte :=
  match r with
  | .undefined =>
    [0] ++ List.replicate 13 absentByte ++ [flag isDestination] ++ dataField none ++ dataField none
  | .polled r =>
    [1, r.rule.form, byte r.rule.bound, r.mode.code, byte r.absenceLimit, r.seq, absentByte, flag r.attention,
      outcomeField r.lastOutcome, byte r.missCount, r.presence.code, byte r.skipCount, absentByte, absentByte,
      flag isDestination] ++ dataField r.data ++ dataField none
  | .contended r =>
    [2, r.rule.form, byte r.rule.bound, r.mode.code, byte r.budget, r.seq, tagField r.lastTag, flag r.attention,
      outcomeField r.lastOutcome, absentByte, absentByte, absentByte, flag r.backlog, absentByte, flag isDestination]
      ++ dataField r.data ++ dataField none
  | .published r =>
    [3, 0, byte r.length, ReportMode.silent.code, absentByte, r.seq, absentByte, flag false, outcomeField r.lastOutcome,
      absentByte, absentByte, absentByte, absentByte, flag r.failsafeActive, flag isDestination]
      ++ dataField r.data ++ dataField r.failsafe

/-- The reply fields of READ_LANE_STATUS (R179, reply table of chapter 11). -/
def laneFields (l : Lane) : List Byte :=
  [l.condition.code, l.resume.condition.code] ++ le16 l.round.counter.toNat ++ le16 l.counts.good ++ le16 l.counts.silent
    ++ le16 l.counts.faulty ++ captureBlock l.capture l.faultsSince
    ++ [byte l.oneShots.length, byte l.schedules.active.length, countField l.schedules.staged, countField l.schedules.builder]

/-- The reply fields of HELLO (R172). -/
def helloFields : List Byte := [0x34, Config.revision, 4, 32, 96, 48, 8, 16, 48, 16, 8, 2, 4]

/-- The reply fields of READ_LINK_STATUS (R175). -/
def linkFields (h : Hli) : List Byte :=
  le16 h.counts.framing ++ le16 h.counts.crc ++ le16 h.counts.overrun ++ le16 h.counts.duplicate
    ++ [h.silenceLimit, flag h.hostSilent]

/-! ## Frames that the part sends -/

/-- The fields of a report body after its kind and sequence number (Report and notice bodies). -/
def Report.fields : Report → List Byte
  | .slotUpdate ref u =>
    [byte ref.lane.val, byte ref.slot.val, u.seq, tagField u.tag, flag u.attention ||| (flag u.backlog <<< 1), byte u.merged]
      ++ dataField (some u.data)
  | .slotPresence ref p => [byte ref.lane.val, byte ref.slot.val, p.code]
  | .laneChange lane old new cause => [byte lane.val, old.code, new.code, cause.code]
  | .faultCaptured lane c =>
    [byte lane.val, c.outcome.code, byte c.slot.val, byte c.cell, byte c.bit] ++ le16 c.round.toNat
  | .oneShotDone lane handle outcome tag data =>
    [byte lane.val] ++ le16 handle ++ [outcome.code, tagField tag] ++ dataField data
  | .scheduleSwapped lane round => [byte lane.val] ++ le16 round.toNat
  | .hostSilence begins => [flag begins]
  | .reportsLost count kinds => le16 count ++ [kinds]

/-- The frame of a reply (R159): kind 0x80, the request's tag, its code, the status and the fields. -/
def Reply.frame (r : Reply) : Frame := ⟨0x80, r.tag, r.code :: r.status.code :: r.fields⟩

/-- The frame of a report (R152, R196): kind 0x81, tag 0, report kind, sequence number and fields. -/
def SentReport.frame (r : SentReport) : Frame := ⟨0x81, 0, byte r.report.kindCode :: le16 r.seq ++ r.report.fields⟩

/-- The frame of the READY notice (R164): kind 0x82, tag 0, reset cause and revision. -/
def readyFrame (cause : ResetCause) : Frame := ⟨0x82, 0, [cause.code, Config.revision]⟩

/-- The frame in transmission as the host receives it on HTX. -/
def OutFrame.frame : OutFrame → Frame
  | .ready cause => readyFrame cause
  | .reply r => r.frame
  | .report r => r.frame

end Sys2Proof.Machine
end

