-- ==== Sys2Proof/Machine/Ops.lean ====
section
/-!
DEFINITION. The named operations over the parts of the state: slots, lanes, routes, the Report Queue and the entry pool.
-/

namespace Sys2Proof.Machine

open Sys2Proof

/-- One more, up to a limit at which the count stays (Conventions: counts that saturate). -/
def bump (limit n : Nat) : Nat := min (n + 1) limit

/-! ## Lanes and slots -/

/-- A lane engine. -/
def State.lane (s : State) (l : LaneId) : Lane := s.lanes[l.val]'l.isLt

/-- Puts a lane engine back. -/
def State.setLane (s : State) (l : LaneId) (lane : Lane) : State := { s with lanes := s.lanes.set l.val lane l.isLt }

/-- Changes one lane engine. -/
def State.onLane (s : State) (l : LaneId) (f : Lane → Lane) : State := s.setLane l (f (s.lane l))

/-- The record of a slot. -/
def State.slot (s : State) (r : SlotRef) : SlotRecord := (s.slots[r.lane.val]'r.lane.isLt)[r.slot.val]'r.slot.isLt

/-- Puts the record of a slot back. -/
def State.setSlot (s : State) (r : SlotRef) (record : SlotRecord) : State :=
  { s with
    slots := s.slots.set r.lane.val ((s.slots[r.lane.val]'r.lane.isLt).set r.slot.val record r.slot.isLt) r.lane.isLt }

/-- Changes the line state of a lane engine. -/
def Lane.onLine (L : Lane) (f : LineState → LineState) : Lane := { L with line := f L.line }

/-- Changes the round state of a lane engine. -/
def Lane.onRound (L : Lane) (f : RoundState → RoundState) : Lane := { L with round := f L.round }

/-! ## The Report Queue (chapter 8) -/

/-- The records the queue holds (R136). -/
def ReportQueue.size (q : ReportQueue) : Nat := q.inFlight.length + q.unsent.length

/-- The bit of a report kind in the lost-kinds set (Report and notice bodies). -/
def Report.lostBit (r : Report) : Byte := 1#8 <<< (r.kindCode - 1)

/-- Merges a SLOT_UPDATE into the first pending SLOT_UPDATE of its lane and slot, in place; none where there is no such record
(R138). The merged counts add up with one for the merge, so the same operation makes the re-merge of R147. -/
def mergeUpdate (ref : SlotRef) (u : Update) : List Report → Option (List Report)
  | [] => none
  | r :: rest =>
    match r with
    | .slotUpdate ref' old =>
      if ref' = ref then some (.slotUpdate ref { u with merged := min (old.merged + u.merged + 1) 255 } :: rest)
      else (mergeUpdate ref u rest).map (r :: ·)
    | _ => (mergeUpdate ref u rest).map (r :: ·)

/-- Offers a record to a list of pending records for merging: only a SLOT_UPDATE merges (R137, R138). -/
def Report.mergeInto (r : Report) (records : List Report) : Option (List Report) :=
  match r with
  | .slotUpdate ref u => mergeUpdate ref u records
  | _ => none

/-- Appends a record as the newest pending one, or drops and counts it where the queue is full (R137, R140). -/
def ReportQueue.append (q : ReportQueue) (r : Report) : ReportQueue :=
  if q.size < 48 then { q with unsent := q.unsent ++ [r] }
  else { q with lostCount := bump 65535 q.lostCount, lostKinds := q.lostKinds ||| r.lostBit }

/-- Takes a report that a block hands over (R137, R138, R140). -/
def ReportQueue.handOver (q : ReportQueue) (r : Report) : ReportQueue :=
  match r.mergeInto q.unsent with
  | some records => { q with unsent := records }
  | none => q.append r

/-- Appends REPORTS_LOST where the lost count is above 0, within an event that frees places (R141). -/
def ReportQueue.reportLoss (q : ReportQueue) : ReportQueue :=
  if q.lostCount = 0 then q
  else { q with unsent := q.unsent ++ [.reportsLost q.lostCount q.lostKinds], lostCount := 0, lostKinds := 0 }

/-- Acknowledges every in-flight record through sequence number `seq` and says how many were removed; none where no in-flight
record has that number (R144, R145). -/
def ReportQueue.acknowledge (q : ReportQueue) (seq : Nat) : Option (Nat × ReportQueue) :=
  match q.inFlight.dropWhile (fun r => r.seq != seq) with
  | [] => none
  | _ :: rest => some (q.inFlight.length - rest.length, ReportQueue.reportLoss { q with inFlight := rest })

/-- The re-merge of R147: each SLOT_UPDATE is merged into the oldest of its lane and slot. -/
def remerge (records : List Report) : List Report :=
  records.foldl (fun kept r => (r.mergeInto kept).getD (kept ++ [r])) []

/-- What LINK_RESET does to the records: all in-flight records return to pending, the re-merge is made, and REPORTS_LOST is
appended if places came free (R146, R147). -/
def ReportQueue.linkReset (q : ReportQueue) : ReportQueue :=
  let returned := q.inFlight.map SentReport.report ++ q.unsent
  let merged := remerge returned
  let q' := { q with inFlight := [], unsent := merged }
  if merged.length < returned.length then q'.reportLoss else q'

/-- Hands a report to the Report Queue. -/
def State.report (s : State) (r : Report) : State := { s with reports := s.reports.handOver r }

/-- The report sequence number that follows one: 65535 is followed by 1 (R143); handles wrap in the same way (R93). -/
def nextNumber (n : Nat) : Nat := if n < 65535 then n + 1 else 1

/-! ## Schedules and the entry pool (chapter 4) -/

/-- The divider of an entry (R72). -/
def Entry.divider (e : Entry) : Nat := 2 ^ e.exponent.val

/-- Whether an entry is due in a round (R72). -/
def Entry.due (e : Entry) (round : BitVec 16) : Bool := round.toNat % e.divider == e.phase

/-- The entries that the three schedules of a lane hold (R70). -/
def Schedules.held (s : Schedules) : Nat := (s.builder.getD []).length + (s.staged.getD []).length + s.active.length

/-- The free places of the entry pool (R70). -/
def State.poolFree (s : State) : Nat := 96 - (s.lanes.toList.map fun L => L.schedules.held).sum

/-- Changes the schedules of a lane. -/
def State.onSchedules (s : State) (l : LaneId) (f : Schedules → Schedules) : State :=
  s.onLane l fun L => { L with schedules := f L.schedules }

/-! ## Routes (chapter 6) -/

/-- The routes held, in ascending order of index (R111). -/
def State.routeList (s : State) : List Route := s.routes.toList.filterMap id

/-- Whether a slot is route-fed: the destination of a route held in some place (R105). -/
def State.routeFed (s : State) (r : SlotRef) : Bool := s.routeList.any fun t => t.dst = r

/-- Whether a slot is named by a route held in some place (R5). -/
def State.inRoute (s : State) (r : SlotRef) : Bool := s.routeList.any fun t => t.src = r || t.dst = r

/-- Whether a slot is named on its lane by a schedule entry or by a one-shot queued or running (R5, R95). -/
def Lane.names (L : Lane) (k : SlotId) : Bool :=
  ((L.schedules.builder.getD []) ++ (L.schedules.staged.getD []) ++ L.schedules.active).any (fun e => e.slot = k)
    || L.oneShots.any (fun o => o.slot = k)
    || L.transaction.any (fun t => t.source = .oneShot && t.slot = k)

/-- Whether a slot is referenced, so that DEFINE_SLOT and CLEAR_SLOT refuse it (R5, R6). -/
def State.inUse (s : State) (r : SlotRef) : Bool := s.inRoute r || (s.lane r.lane).names r.slot

/-! ## One-shot handles (R93) -/

/-- The handles that a lane's queued and running one-shots hold. -/
def Lane.handles (L : Lane) : List Nat :=
  L.oneShots.map OneShot.handle ++ ((L.transaction.bind Transaction.oneShot).map Prod.fst).toList

/-- The handles held in the part. -/
def State.handles (s : State) : List Nat := s.lanes.toList.flatMap Lane.handles

/-- Passes over the handles held, from `n` on, at most `fuel` of them. -/
def passOver (held : List Nat) : Nat → Nat → Nat
  | 0, n => n
  | fuel + 1, n => if held.contains n then passOver held fuel (nextNumber n) else n

/-- The first handle from `n` on that none of `held` is; with as many handles to pass over as are held, one is always found
(R93; DEDUCED, log entry 13). -/
def freeHandle (held : List Nat) (n : Nat) : Nat := passOver held held.length n

end Sys2Proof.Machine
end

