-- ==== Sys2Proof/Machine/Flags.lean ====
section
/-!
DEFINITION. What follows from the state without being stored (log entry 23): the pins HATNn, HTX, LENn and LTXn, the classes of the outcomes, and the
counting of the dominant and recessive runs.
-/

namespace Sys2Proof.Machine

open Sys2Proof

/-! ## Pins -/

/-- Whether HATNn is low: a record is pending with no credit, or READY waits (R149). -/
def State.hatnLow (s : State) : Bool := (!s.reports.unsent.isEmpty && s.hli.credit == 0) || s.hli.ready.isSome

/-- Whether LENn is on: in every condition except SLEEPING (R27, R115). -/
def Lane.lenOn (L : Lane) : Bool := L.condition != .sleeping

/-- The level of LTXn: low for a bit that the engine drives dominant, and high, with the line released, in every other case (R27). -/
def Lane.ltxHigh (L : Lane) : Bool := !L.line.driving

/-- The level of HTX, true for high, at a bit of the frame in transmission, counted from its first start bit: the bit of the frame (R152), and
the idle level, high, behind its last bit and while no frame is in transmission (R162). Which bit of a frame is on the line at a moment is
time, which the state does not hold (log entries 20 and 23). -/
def State.htxHigh (s : State) (bit : Nat) : Bool :=
  match s.hli.transmitting with
  | none => true
  | some f => (f.frame.bits[bit]?).getD true

/-- What the output pins show: `hatn`, `htx` and `ltx` are levels, true for high; `len` is true where a transceiver is enabled (Signals). -/
structure Pins where
  hatn : Bool
  htx : Bool
  ltx : Vector Bool 4
  len : Vector Bool 4
  deriving DecidableEq, Repr

/-- The pins as they follow from the state, at a bit of the frame in transmission (R27, R149, R152, R162). -/
def State.pins (s : State) (bit : Nat) : Pins :=
  { hatn := !s.hatnLow, htx := s.htxHigh bit, ltx := s.lanes.map Lane.ltxHigh, len := s.lanes.map Lane.lenOn }

/-- The pins while a power-on reset or a pin reset lasts, whatever state it began in: HATNn low, HTX at the idle level even where the reset
cuts a frame off, every line released and every transceiver off (R27, R149, R163; log entry 22). -/
def Pins.inReset : Pins := { hatn := false, htx := true, ltx := Vector.replicate 4 true, len := Vector.replicate 4 false }

/-! ## Outcomes -/

/-- The faulty class: every outcome but DONE and NO_RESPONSE (R52). -/
def TxOutcome.faulty (o : TxOutcome) : Bool := o != .done && o != .noResponse

/-- The outcomes that leave the lane with drain owed (R29). -/
def TxOutcome.owesDrain : TxOutcome → Bool
  | .headerError | .lengthMismatch | .tagError | .framingError | .readbackError => true
  | .done | .noResponse | .checkError | .gapTimeout | .lineStuck => false

/-- The lengths that a length rule admits (R3). -/
def LengthRule.admits (r : LengthRule) (n : Nat) : Bool :=
  match r with
  | .exact m => n == m
  | .upTo m => n ≤ m

/-! ## The runs of the line state (R26) -/

/-- The engine begins to drive: both runs return to 0. -/
def LineState.startDriving (x : LineState) : LineState :=
  { x with driving := true, dominantRun := 0, recessiveRun := 0, waited := 0 }

/-- The engine releases the line: counting resumes from 0. -/
def LineState.release (x : LineState) : LineState :=
  { x with driving := false, dominantRun := 0, recessiveRun := 0, waited := 0 }

/-- The engine sends bit `i` at a level and a place: it drives LTXn low for a dominant bit and releases it for a recessive one (R27). -/
def LineState.send (x : LineState) (i : Nat) (place : Nat × Nat) (recessive : Bool) : LineState :=
  { (if recessive then { x with driving := false } else x.startDriving) with sent := i, position := some place }

/-- The bits `levels` have been sent to their end: the recessive ones that end them have been counted, since LTXn is not low for them
(R26, R27; DEDUCED, log entry 15). -/
def LineState.sentWhole (x : LineState) (levels : List Bool) : LineState :=
  { x with driving := false, dominantRun := 0, recessiveRun := recessiveTail levels, sent := 0, waited := 0 }

/-- `n` further bit times read recessive. -/
def LineState.recessiveFor (x : LineState) (n : Nat) : LineState :=
  { x with dominantRun := 0, recessiveRun := min (x.recessiveRun + n) 255 }

/-- The recessive run reaches the length awaited; a run already longer stands. -/
def LineState.reach (x : LineState) (n : Nat) : LineState :=
  { x with dominantRun := 0, recessiveRun := min (max x.recessiveRun n) 255 }

/-- One bit time read dominant. -/
def LineState.dominantBit (x : LineState) : LineState := { x with dominantRun := bump 30 x.dominantRun, recessiveRun := 0 }

/-- The first bit time read dominant behind a falling edge. -/
def LineState.firstDominant (x : LineState) : LineState := { x with dominantRun := 1, recessiveRun := 0 }

/-- One bit time of a wait that is not counted on the recessive run (log entry 30). -/
def LineState.waitOn (x : LineState) : LineState := { x with waited := bump 255 x.waited }

/-- The dominant run stands at 30 (R43). -/
def LineState.stuck (x : LineState) : LineState := { x with dominantRun := 30, recessiveRun := 0 }

/-- The runs after a received cell: the cell's own bit times end at the level of its stop bit (DEDUCED, log entry 15). -/
def LineState.afterCell (x : LineState) (levels : BitVec 9) : LineState :=
  { (if cellStopDominant levels then { x with dominantRun := cellEndRun levels, recessiveRun := 0 }
    else { x with dominantRun := 0, recessiveRun := cellEndRun levels }) with waited := 0, cell := none }

/-- Whether the bits of a cell taken so far are the first of the levels of the whole cell. -/
def LineState.fits (x : LineState) (levels : BitVec 9) : Bool :=
  (x.cell.getD []).isPrefixOf ((List.range 9).map levels.getLsbD)

/-! ## Waits on the recessive run -/

/-- The recessive run that a call waits for: the turnaround gap, with the drain before it where it is owed (R28, R29). -/
def Lane.callWait (L : Lane) : Nat :=
  if L.line.drainOwed then L.config.gapLimit + 10 + L.config.turnaroundGap else L.config.turnaroundGap

/-- The recovery quiet: 128 recessive bit times (R127). -/
def recoveryQuiet : Nat := 128

/-- The recovery quiet is complete while the recessive run stands at 128 or more (R127). -/
def Lane.quietComplete (L : Lane) : Bool := recoveryQuiet ≤ L.line.recessiveRun

end Sys2Proof.Machine
end

