-- ==== Sys2Proof/Machine/SlotTable.lean ====
section
/-!
DEFINITION. What the Slot Table and the Route Table do: taking the ending of a transaction (R8 to R16), route copies (R111, R112),
writing a published slot (R17, R20) and the failsafe application (R21).
-/

namespace Sys2Proof.Machine

open Sys2Proof

/-! ## Published data -/

/-- Replaces the data of a published slot and advances its update sequence (R17). -/
def PublishedRec.put (p : PublishedRec) (data : List Byte) : PublishedRec := { p with data := some data, seq := p.seq + 1 }

/-- The failsafe application to one record (R21): a published slot that holds failsafe data and is not route-fed. -/
def SlotRecord.applyFailsafe (r : SlotRecord) (routeFed : Bool) : SlotRecord :=
  match r with
  | .published p =>
    match p.failsafe, routeFed with
    | some f, false => .published { p.put f with failsafeActive := true }
    | _, _ => r
  | _ => r

/-- The failsafe application across the table, as one event (R21). -/
def State.applyFailsafe (s : State) : State :=
  { s with
    slots := Vector.ofFn fun l => Vector.ofFn fun k => (s.slot ⟨l, k⟩).applyFailsafe (s.routeFed ⟨l, k⟩) }

/-- Clears the failsafe-active flag of a published slot (R22). -/
def State.clearFailsafeActive (s : State) (r : SlotRef) : State :=
  match s.slot r with
  | .published p => s.setSlot r (.published { p with failsafeActive := false })
  | _ => s

/-! ## Route copies -/

/-- One route fed with the data of an accepted update of its source (R111, R112). -/
def copyRoute (data : List Byte) (s : State) (t : Route) : State :=
  match s.slot t.dst with
  | .published p =>
    if t.mode = .always ∨ p.data ≠ some data then s.setSlot t.dst (.published (p.put data)) else s
  | _ => s

/-- Every route held whose source is a slot, fed in ascending order of index (R111). -/
def feedRoutes (src : SlotRef) (data : List Byte) (s : State) : State :=
  (s.routeList.filter fun t => t.src = src).foldl (copyRoute data) s

/-! ## Accepted updates -/

/-- The report decision for an accepted update (R10). -/
def ReportMode.reports (m : ReportMode) (attention changed : Bool) : Bool :=
  match m with
  | .silent => attention
  | .onChange => attention || changed
  | .every => true

/-- What a DONE delivers: data and attention, and on a contended slot the tag (R8). -/
structure Delivery where
  data : List Byte
  attention : Bool
  tag : Option (BitVec 5)
  deriving DecidableEq, Repr

/-- The record of a polled slot after an accepted update (R9, R13). -/
def PolledRec.accept (r : PolledRec) (d : Delivery) : PolledRec :=
  { r with
    data := some d.data, attention := d.attention, seq := r.seq + 1, missCount := 0, presence := .present, skipCount := 0 }

/-- A DONE on a polled slot, in the order of R9. -/
def acceptPolled (ref : SlotRef) (r : PolledRec) (d : Delivery) (s : State) : State :=
  let r' := r.accept d
  let s := s.setSlot ref (.polled r')
  let s := if r.presence = .absent then s.report (.slotPresence ref .present) else s
  let s :=
    if r.mode.reports d.attention (r.data ≠ some d.data) then
      s.report (.slotUpdate ref
        { seq := r'.seq, tag := none, attention := d.attention, backlog := false, merged := 0, data := d.data })
    else s
  feedRoutes ref d.data s

/-- The record of a contended slot after an accepted update, its backlog settled (R9, R15, R16). -/
def ContendedRec.accept (r : ContendedRec) (d : Delivery) (backlog : Bool) : ContendedRec :=
  { r with data := some d.data, attention := d.attention, lastTag := d.tag, seq := r.seq + 1, backlog }

/-- A DONE on a contended slot, in the order of R9. -/
def acceptContended (ref : SlotRef) (r : ContendedRec) (d : Delivery) (backlog : Bool) (s : State) : State :=
  let r' := r.accept d backlog
  let s := s.setSlot ref (.contended r')
  let changed := r.data ≠ some d.data || r.lastTag ≠ d.tag
  let s :=
    if r.mode.reports d.attention changed then
      s.report (.slotUpdate ref
        { seq := r'.seq, tag := d.tag, attention := d.attention, backlog, merged := 0, data := d.data })
    else s
  feedRoutes ref d.data s

/-! ## Endings -/

/-- The backlog flag after an ending on a contended slot, by the table of R16. What R59 says a follow-up leaves is what its decision and its
pending result leave: a NO_RESPONSE of itself clears the flag at the end of every transaction (R8, R15; DEDUCED, log entry 28). -/
def settledBacklog (old : Bool) (o : TxOutcome) (p : PendingResult) (followUp : Bool) : Bool :=
  match o with
  | .done | .checkError =>
    match p with
    | .seen => if followUp then old else true
    | .notSeen => false
    | .notSampled => old
  | .noResponse => false
  | _ => old

/-- A NO_RESPONSE on a polled slot (R12, R14). -/
def missPolled (ref : SlotRef) (r : PolledRec) (s : State) : State :=
  let misses := bump 15 r.missCount
  if r.presence = .present then
    if r.absenceLimit ≤ misses then
      (s.setSlot ref (.polled { r with missCount := misses, presence := .absent, skipCount := 0 })).report
        (.slotPresence ref .absent)
    else s.setSlot ref (.polled { r with missCount := misses })
  else s.setSlot ref (.polled { r with missCount := misses, skipCount := 0 })

/-- An ending on a polled slot whose last outcome has been set (R8). -/
def endPolled (ref : SlotRef) (r : PolledRec) (o : TxOutcome) (d : Delivery) (s : State) : State :=
  match o with
  | .done => acceptPolled ref r d s
  | .noResponse => missPolled ref r s
  | _ => s.setSlot ref (.polled { r with skipCount := if r.presence = .absent then 0 else r.skipCount })

/-- An ending on a contended slot whose last outcome has been set (R8, R15, R16). -/
def endContended (ref : SlotRef) (r : ContendedRec) (o : TxOutcome) (d : Delivery) (backlog : Bool) (s : State) : State :=
  match o with
  | .done => acceptContended ref r d backlog s
  | _ => s.setSlot ref (.contended { r with backlog })

/-- The Slot Table takes the ending of a transaction on a slot, as R8 gives for each kind (stage 3 of R53). -/
def takeEnding (ref : SlotRef) (o : TxOutcome) (d : Delivery) (p : PendingResult) (followUp : Bool) (s : State) : State :=
  match s.slot ref with
  | .undefined => s
  | .polled r => endPolled ref { r with lastOutcome := some o } o d s
  | .contended r =>
    endContended ref { r with lastOutcome := some o } o d (settledBacklog r.backlog o p followUp) s
  | .published r => s.setSlot ref (.published { r with lastOutcome := some o })

end Sys2Proof.Machine
end

