-- ==== Sys2Proof/Machine/Engine.lean ====
section
/-!
DEFINITION. What a lane engine does: beginning a transaction (R47), choosing the next (R79 to R90), the swap (R84, R85), the changes
of condition (R83, R116 to R131) and the ending of a transaction (R52 to R61).
-/

namespace Sys2Proof.Machine

open Sys2Proof

/-! ## Beginning a transaction (R47) -/

/-- A new transaction record, in GAP. -/
def Transaction.begin (source : Source) (slot : SlotId) (kind : CallKind) : Transaction :=
  { source, oneShot := none, slot, kind, phase := .gap, allowance := none, followUpsForbidden := false, sendData := none
    tag := none, header := none, data := [], pendingResult := .notSampled, checkMatched := false }

/-- Puts a transaction in progress on a lane; the wait before its call is placed at cell 0, bit 0 (R42). -/
def State.begin (s : State) (l : LaneId) (t : Transaction) : State :=
  s.onLane l fun L => { L with transaction := some t, line := { L.line with position := some (0, 0) } }

/-- The kind of call that a slot record leads to. -/
def SlotRecord.callKind : SlotRecord → Option CallKind
  | .undefined => none
  | .polled _ => some .polled
  | .contended _ => some .contended
  | .published _ => some .published

/-- Begins the sleep call (R45, R47, R119). -/
def beginSleepCall (l : LaneId) (s : State) : State :=
  s.begin l { Transaction.begin .sleepCall 0 .published with sendData := some [0x5A#8] }

/-- Begins a follow-up of the contended transaction just ended (R58, R60). -/
def beginFollowUp (l : LaneId) (t : Transaction) (s : State) : State :=
  s.begin l { Transaction.begin .followUp t.slot .contended with
    allowance := t.allowance.map (· - 1), followUpsForbidden := t.followUpsForbidden }

/-- Begins the oldest one-shot of the queue, if there is one: the streak increments, with an empty active schedule too (DEDUCED, log entry
10), and a pause ends (R81, R88, R96). -/
def beginOneShot (l : LaneId) (s : State) : State :=
  match (s.lane l).oneShots with
  | [] => s
  | o :: rest =>
    let kind := ((s.slot ⟨l, o.slot⟩).callKind).getD (if o.kind = .poll then .polled else .published)
    let s := s.onLane l fun L =>
      { L with oneShots := rest, round := { L.round with pause := none, streak := bump 2 L.round.streak } }
    s.begin l { Transaction.begin .oneShot o.slot kind with oneShot := some (o.handle, o.kind), sendData := o.data }

/-- Begins the SCHEDULED transaction of an entry on a slot; the streak becomes 0 (R47, R79, R88). -/
def beginScheduled (l : LaneId) (slot : SlotId) (kind : CallKind) (allowance : Option Nat) (s : State) : State :=
  (s.onLane l fun L => { L with round := { L.round with streak := 0 } }).begin l
    { Transaction.begin .scheduled slot kind with allowance }

/-! ## Considering the entries of the round (R79, R90) -/

/-- Moves the round position on by one. -/
def advancePosition (l : LaneId) (s : State) : State :=
  s.onLane l fun L => L.onRound fun r => { r with position := r.position + 1 }

/-- Considers entries in list order until one begins as a transaction (R79). An entry of a slot that is UNDEFINED, which R72
excludes, is passed over (DESIGN CHOICE, log entry 21). -/
def considerEntries (l : LaneId) : List Entry → State → State
  | [], s => s
  | e :: rest, s =>
    let moved := advancePosition l s
    if e.due (s.lane l).round.counter then
      match s.slot ⟨l, e.slot⟩ with
      | .undefined => considerEntries l rest moved
      | .polled r =>
        if r.presence = .absent ∧ r.skipCount + 1 < (s.lane l).config.probeInterval then
          considerEntries l rest (moved.setSlot ⟨l, e.slot⟩ (.polled { r with skipCount := r.skipCount + 1 }))
        else beginScheduled l e.slot .polled none moved
      | .contended r => beginScheduled l e.slot .contended (some r.budget) moved
      | .published r =>
        if r.data = none then considerEntries l rest moved else beginScheduled l e.slot .published none moved
    else considerEntries l rest moved

/-! ## The swap and the end of a round (R80, R84, R85) -/

/-- Swaps a staged schedule in, if one is present (R85); the round position becomes 0 in every condition (DEDUCED, log entry 26). -/
def swapStaged (l : LaneId) (s : State) : State :=
  match (s.lane l).schedules.staged with
  | none => s
  | some es =>
    (s.onLane l fun L =>
      { L with
        schedules := { L.schedules with active := es, staged := none }, round := { L.round with position := 0 } }).report
      (.scheduleSwapped l (s.lane l).round.counter)

/-- The end of a round (R80). A round that ran nothing is followed by a pause, but on a lane whose active schedule has become empty,
where R82 takes none (DEDUCED, log entry 9). -/
def endRound (l : LaneId) (s : State) : State :=
  let s := swapStaged l (s.onLane l fun L => L.onRound fun r => { r with counter := r.counter + 1 })
  s.onLane l fun L => L.onRound fun r =>
    { r with
      position := 0, worked := false
      pause := if r.worked || L.schedules.active.isEmpty then none else some 0 }

/-! ## Choosing the next transaction (R87) -/

/-- Whether a transaction is in progress on a lane. -/
def State.busy (s : State) (l : LaneId) : Bool := (s.lane l).transaction.isSome

/-- Steps 2 to 6 of R87, with how many rounds may still be begun within the choice. A round that ran nothing ends in a pause, so a
choice ends at most two rounds. -/
def chooseIn : Nat → LaneId → State → State
  | 0, _, s => s
  | rounds + 1, l, s =>
    let L := s.lane l
    if !L.oneShots.isEmpty && L.round.streak < 2 then beginOneShot l s
    else
      let s :=
        if L.round.pause.isNone then considerEntries l (L.schedules.active.drop L.round.position) s else s
      if s.busy l then s
      else if !L.oneShots.isEmpty then beginOneShot l s
      else if !L.schedules.active.isEmpty && L.round.pause.isNone then chooseIn rounds l (endRound l s)
      else s

/-- The choice of a RUNNING lane with no transaction in progress (R87). -/
def choose (l : LaneId) (s : State) : State := chooseIn 3 l s

/-! ## Changes of condition (R83, R131) -/

/-- The round state on entry to RUNNING, and on leaving RUNNING or HALTING (R83); the round counter keeps its value. -/
def resetRound (l : LaneId) (s : State) : State :=
  s.onLane l fun L => L.onRound fun r => { r with position := 0, worked := false, pause := none, streak := 0 }

/-- The old condition that a LANE_CHANGE names: HALTING is never named (R131). -/
def Condition.reported : Condition → Condition
  | .halting => .running
  | c => c

/-- Changes the condition of a lane and hands over its LANE_CHANGE (R131). -/
def changeCondition (l : LaneId) (new : Condition) (cause : Cause) (s : State) : State :=
  (s.onLane l fun L => { L with condition := new }).report (.laneChange l (s.lane l).condition.reported new cause)

/-- Entry into RUNNING: LANE_CHANGE, swap, round state, and the choice at once (R83, R116, R124, R129). -/
def enterRunning (l : LaneId) (cause : Cause) (s : State) : State :=
  choose l (resetRound l (swapStaged l (changeCondition l .running cause s)))

/-- Entry into HALTED: LANE_CHANGE and swap (R83, R84, R117). -/
def enterHalted (l : LaneId) (cause : Cause) (s : State) : State := swapStaged l (changeCondition l .halted cause s)

/-- Entry into the resume condition (R124, R129). -/
def enterResume (l : LaneId) (cause : Cause) (s : State) : State :=
  match (s.lane l).resume with
  | .running => enterRunning l cause s
  | .halted => enterHalted l cause s

/-- Completes every queued one-shot with an outcome, oldest first, and empties the queue (R102, R103). -/
def completeQueued (l : LaneId) (outcome : Completion) (s : State) : State :=
  let queued := (s.lane l).oneShots
  queued.foldl (fun s o => s.report (.oneShotDone l o.handle outcome none none)) (s.onLane l fun L => { L with oneShots := [] })

/-- The resume condition set on entry into FAULTED (R126). -/
def Condition.resumeAfterFault (c : Condition) (kept : Resume) : Resume :=
  match c with
  | .running => .running
  | .halted | .halting | .sleeping => .halted
  | .sleepPending | .waking | .faulted => kept

/-- Entry into FAULTED (R126). -/
def enterFaulted (l : LaneId) (cause : Cause) (s : State) : State :=
  let left := (s.lane l).condition
  let s := s.onLane l fun L =>
    { L with
      resume := left.resumeAfterFault L.resume, recoveryArmed := false, readbackRun := 0
      line := { L.line with driving := false, recessiveRun := 0 } }
  let s := if left = .running ∨ left = .halting then resetRound l s else s
  completeQueued l .laneFault (changeCondition l .faulted cause s)

/-- Leaving FAULTED for the resume condition (R129). -/
def leaveFaulted (l : LaneId) (s : State) : State :=
  enterResume l .recovered
    (s.onLane l fun L => { L with recoveryArmed := false, line := { L.line with drainOwed := false } })

/-- Entry into WAKING (R120, R122, R123); LENn follows the condition. -/
def enterWaking (l : LaneId) (cause : Cause) (s : State) : State := changeCondition l .waking cause s

/-! ## The ending of a transaction (R52, R53) -/

/-- The follow-up decision (stage 1 of R53, R59). -/
def Transaction.followsUp (t : Transaction) (o : TxOutcome) : Bool :=
  (t.source == .scheduled || t.source == .followUp) && t.kind == .contended && (o == .done || o == .checkError)
    && t.pendingResult == .seen && 1 ≤ t.allowance.getD 0 && !t.followUpsForbidden

/-- What the transaction hands over on DONE (R8). -/
def Transaction.delivery (t : Transaction) : Delivery :=
  { data := t.data, attention := (t.header.map Header.attention).getD false, tag := t.tag }

/-- The lane counts after an ending (stage 4 of R53, R54). -/
def LaneCounts.take (c : LaneCounts) (o : TxOutcome) : LaneCounts :=
  match o with
  | .done => { c with good := bump 65535 c.good }
  | .noResponse => { c with silent := bump 65535 c.silent }
  | _ => { c with faulty := bump 65535 c.faulty }

/-- Stage 2 of R53: the receive position becomes absent, and drain owed is set for the outcomes that leave it. No bit is being sent and no
cell received any more. -/
def settleLine (l : LaneId) (o : TxOutcome) (s : State) : State :=
  s.onLane l fun L => L.onLine fun x =>
    { x with position := none, drainOwed := x.drainOwed || o.owesDrain, sent := 0, waited := 0, cell := none }

/-- Stages 4 and 5 of R53: the lane counts and the readback-error run (R54, R55). -/
def countEnding (l : LaneId) (o : TxOutcome) (s : State) : State :=
  s.onLane l fun L =>
    { L with
      counts := L.counts.take o, readbackRun := if o = .readbackError then bump 3 L.readbackRun else 0 }

/-- Stage 6 of R53: a faulty outcome fills an armed capture or counts in faults-since-capture (R56). -/
def captureFault (l : LaneId) (o : TxOutcome) (slot : SlotId) (cell bit : Nat) (s : State) : State :=
  if o.faulty then
    match (s.lane l).capture with
    | none =>
      let record : CaptureRecord := { outcome := o, slot, cell, bit, round := (s.lane l).round.counter }
      (s.onLane l fun L => { L with capture := some record }).report (.faultCaptured l record)
    | some _ => s.onLane l fun L => { L with faultsSince := bump 255 L.faultsSince }
  else s

/-- Stage 7 of R53: a one-shot completes with the outcome of its transaction; a POLL that ended DONE carries the data, and on a
contended slot the tag (R99). -/
def completeOneShot (l : LaneId) (t : Transaction) (o : TxOutcome) (s : State) : State :=
  match t.oneShot with
  | none => s
  | some (handle, kind) =>
    if kind = .poll ∧ o = .done then s.report (.oneShotDone l handle (.ended o) t.tag (some t.data))
    else s.report (.oneShotDone l handle (.ended o) none none)

/-- On a RUNNING lane whose active schedule holds entries, a transaction has ended in the current round (R78, R89; DEDUCED, log
entry 10). -/
def markWorked (l : LaneId) (s : State) : State :=
  s.onLane l fun L =>
    if L.condition = .running ∧ !L.schedules.active.isEmpty then L.onRound fun r => { r with worked := true } else L

/-- The swap of a RUNNING lane that is between transactions with an empty active schedule (R82, R84). -/
def swapIfEmpty (l : LaneId) (s : State) : State :=
  if (s.lane l).schedules.active.isEmpty then swapStaged l s else s

/-- Stage 8 of R53: the record becomes absent, or a follow-up begins, and the condition of the lane is acted on. -/
def actOnCondition (l : LaneId) (t : Transaction) (o : TxOutcome) (followUp : Bool) (s : State) : State :=
  let s := markWorked l (s.onLane l fun L => { L with transaction := none })
  if followUp then beginFollowUp l t s
  else if 3 ≤ (s.lane l).readbackRun then enterFaulted l .readback s
  else if o = .lineStuck then enterFaulted l .stuck s
  else
    match (s.lane l).condition with
    | .running => choose l (swapIfEmpty l s)
    | .halting => enterHalted l .request (resetRound l s)
    | .sleepPending => if t.source = .sleepCall ∧ o = .done then s else beginSleepCall l s
    | .halted | .sleeping | .waking | .faulted => s

/-- The ending of the transaction in progress on a lane, with an outcome and the place of a faulty one (R53). -/
def endTransaction (l : LaneId) (o : TxOutcome) (cell bit : Nat) (s : State) : State :=
  match (s.lane l).transaction with
  | none => s
  | some t =>
    let followUp := t.followsUp o
    let s := settleLine l o s
    let s := takeEnding ⟨l, t.slot⟩ o t.delivery t.pendingResult followUp s
    let s := countEnding l o s
    let s := captureFault l o t.slot cell bit s
    let s := completeOneShot l t o s
    actOnCondition l t o followUp s

end Sys2Proof.Machine
end

