-- ==== Sys2Proof/Machine/LaneEvents.lean ====
section
/-!
DEFINITION. The events of a transaction on a lane, from the end of its gap to its ending (R28 to R51).
-/

namespace Sys2Proof.Machine

open Sys2Proof

/-- An event of the transaction in progress on a lane in one phase (R46). -/
def inPhase (l : LaneId) (phase : Phase) (s : State) (k : Transaction → Host.Outcome State Fault Refusal) :
    Host.Outcome State Fault Refusal :=
  match (s.lane l).transaction with
  | none => .refused .noTransaction
  | some t => if t.phase = phase then k t else .refused .wrongPhase

/-- Changes the line state of a lane. -/
def State.onLine (s : State) (l : LaneId) (f : LineState → LineState) : State := s.onLane l fun L => L.onLine f

/-- Goes on with a changed transaction record at a receive position. -/
def continueWith (l : LaneId) (t : Transaction) (cell : Nat) (s : State) : State :=
  s.onLane l fun L => { L with transaction := some t, line := { L.line with position := some (cell, 0) } }

/-- The snapshot of a scheduled publish (R18, R30, R48): the data the slot holds as the call marker begins. A sleep call and a
one-shot PUBLISH send their own. -/
def Transaction.snapshot (t : Transaction) (r : SlotRecord) : Option (List Byte) :=
  match t.source, r with
  | .scheduled, .published p => p.data
  | _, _ => t.sendData

/-- The cells that the engine sends in a transaction: the call cell (R31), and on a publish the cells of R40 behind it. -/
def Transaction.cellsSent (t : Transaction) : List Byte :=
  numberCell t.slot.val :: (if t.kind = .published then publishCells t.slot (t.sendData.getD []) else [])

/-- The levels that the engine sends in a phase, in the order of time: in CALL the call marker and the call cell (R30, R31), in SEND the
header, data and check cells of a publish (R40); true is recessive. -/
def Transaction.levelsSent (t : Transaction) : List Bool :=
  match t.phase with
  | .call => markerLevels ++ cellLevels (numberCell t.slot.val)
  | .send => (t.cellsSent.drop 1).flatMap cellLevels
  | .gap | .await | .receive | .window => []

/-- The place of bit `i` of the levels sent, as R42 counts it: the call marker and the call cell are cell 0, and every bit of the marker is
placed at bit 0. -/
def Transaction.placeSent (t : Transaction) (i : Nat) : Nat × Nat :=
  match t.phase with
  | .send => (1 + i / 10, i % 10)
  | .call | .gap | .await | .receive | .window => (0, i - 13)

/-- GAP_WAIT_COMPLETE: the recessive run reaches the wait, drain owed is discharged, and the call marker begins (R28, R29, R48). -/
def execGapWaitComplete (l : LaneId) (s : State) : Host.Outcome State Fault Refusal :=
  inPhase l .gap s fun t =>
    .next (s.onLane l fun L =>
      { L with
        transaction := some { t with phase := .call, sendData := t.snapshot (s.slot ⟨l, t.slot⟩) }
        line := { L.line.send 0 (0, 0) false with drainOwed := false } })

/-- The call cell's stop bit ends with every bit read back as sent: AWAIT for a slot that responders answer, with the line released, and SEND
for a publish, which begins with the dominant start bit of the header cell (R40, R49). -/
def completeCall (l : LaneId) (t : Transaction) (s : State) : State :=
  s.onLane l fun L =>
    match t.kind with
    | .published => { L with transaction := some { t with phase := .send }, line := L.line.send 0 (1, 0) false }
    | .polled | .contended =>
      { L with
        transaction := some { t with phase := .await }
        line := { L.line.sentWhole t.levelsSent with position := some (1, 0) } }

/-- The check cell's stop bit of a publish ends with every bit read back as sent (R51). -/
def completePublish (l : LaneId) (t : Transaction) (s : State) : State :=
  endTransaction l .done 0 0 (s.onLine l fun x => x.sentWhole t.levelsSent)

/-- CALL_COMPLETE: every bit of the marker and the call cell that is still to come is read back as sent (R49). -/
def execCallComplete (l : LaneId) (s : State) : Host.Outcome State Fault Refusal :=
  inPhase l .call s fun t => .next (completeCall l t s)

/-- PUBLISH_COMPLETE: every bit of the publish that is still to come is read back as sent (R51). -/
def execPublishComplete (l : LaneId) (s : State) : Host.Outcome State Fault Refusal :=
  inPhase l .send s fun t => .next (completePublish l t s)

/-- A mismatch at bit `i` of the levels sent: the engine releases the line at once and the transaction ends there, with drain owed (R29,
R41, R42). -/
def failReadback (l : LaneId) (t : Transaction) (i : Nat) (s : State) : State :=
  endTransaction l .readbackError (t.placeSent i).1 (t.placeSent i).2 (s.onLine l LineState.release)

/-- READBACK_ERROR: the bits ahead were read back as sent, and the one behind them reads otherwise than it was sent (R25, R41). -/
def execReadbackError (l : LaneId) (ahead : Nat) (read : Samples 1) (s : State) : Host.Outcome State Fault Refusal :=
  match (s.lane l).transaction with
  | none => .refused .noTransaction
  | some t =>
    let i := (s.lane l).line.sent + ahead
    match t.levelsSent[i]? with
    | none => .refused .bitNotSent
    | some recessive =>
      if read.dominant (s.lane l).config.sampleFilter = recessive then .next (failReadback l t i s) else .refused .bitAgrees

/-- One bit that the engine sends is read back (R41): a recessive one counts in the recessive run, since LTXn is not low for it (R26), and the
engine goes on to the next, or the call or the publish is complete. -/
def readBack (l : LaneId) (t : Transaction) (dominant : Bool) (s : State) : Host.Outcome State Fault Refusal :=
  let i := (s.lane l).line.sent
  match t.levelsSent[i]? with
  | none => .refused .bitNotSent
  | some recessive =>
    if dominant = recessive then .next (failReadback l t i s)
    else
      match t.levelsSent[i + 1]? with
      | some next =>
        .next (s.onLine l fun x => (if recessive then x.recessiveFor 1 else x).send (i + 1) (t.placeSent (i + 1)) next)
      | none => .next (if t.phase = .send then completePublish l t s else completeCall l t s)

/-- RESPONSE_TIMEOUT: the transaction ends as NO_RESPONSE (R32). -/
def execResponseTimeout (l : LaneId) (s : State) : Host.Outcome State Fault Refusal :=
  inPhase l .await s fun _ =>
    .next (endTransaction l .noResponse 0 0
      (s.onLane l fun L => L.onLine fun x => x.recessiveFor (L.config.responseTimeout - x.waited)))

/-- The index of the response cell that the transaction awaits: the tag cell is 1, the header cell 1 or 2, the data cells and the check
cell follow (R42). -/
def Transaction.cellIndex (t : Transaction) : Nat :=
  match t.header with
  | none => if t.tag.isSome then 2 else 1
  | some _ => (if t.kind = .contended then 3 else 2) + t.data.length

/-- Whether the cell that the transaction awaits is its tag cell. -/
def Transaction.awaitsTag (t : Transaction) : Bool := t.kind == .contended && t.tag.isNone

/-- Whether the cell that the transaction awaits is its header cell. -/
def Transaction.awaitsHeader (t : Transaction) : Bool := !t.awaitsTag && t.header.isNone

/-- Whether the cell that the transaction awaits is a data cell: fewer have come than the header announced (R37). -/
def Transaction.awaitsData (t : Transaction) : Bool :=
  !t.awaitsTag && t.header.any fun h => t.data.length < h.length

/-- Whether the cell that the transaction awaits is its check cell. -/
def Transaction.awaitsCheck (t : Transaction) : Bool :=
  !t.awaitsTag && t.header.any fun h => h.length ≤ t.data.length

/-- A start bit confirmed dominant begins the cell awaited, and the phase is RECEIVE (R32, R49). -/
def startCell (l : LaneId) (t : Transaction) (s : State) : State :=
  s.onLane l fun L =>
    { L with
      transaction := some { t with phase := .receive }
      line := { L.line.firstDominant with position := some (t.cellIndex, 0), waited := 0, cell := some [] } }

/-- Whether the transaction on a lane awaits the start edge of a response cell: in AWAIT, and in RECEIVE between cells (R32, R34). -/
def Lane.awaitsEdge (L : Lane) (t : Transaction) : Bool := t.phase == .await || (t.phase == .receive && L.line.cell.isNone)

/-- RESPONSE_START_BIT: a start bit that reads dominant begins the cell awaited; one that reads recessive is a disturbance and is ignored,
before the first cell and between cells alike (R32, R34). -/
def execResponseStartBit (l : LaneId) (start : Samples 1) (s : State) : Host.Outcome State Fault Refusal :=
  match (s.lane l).transaction with
  | none => .refused .noTransaction
  | some t =>
    if (s.lane l).awaitsEdge t then
      if start.dominant (s.lane l).config.sampleFilter then .next (startCell l t s) else .next s
    else .refused .wrongPhase

/-- A response cell whose levels are known: a dominant stop bit ends the transaction as FRAMING_ERROR whatever the cell holds, and otherwise
its value is passed to its check (R33). -/
def takeCell (l : LaneId) (t : Transaction) (levels : BitVec 9) (s : State)
    (check : LaneId → Transaction → Byte → State → Host.Outcome State Fault Refusal) : Host.Outcome State Fault Refusal :=
  let s := s.onLine l fun x => x.afterCell levels
  if cellStopDominant levels then .next (endTransaction l .framingError t.cellIndex 9 s) else check l t (cellValue levels) s

/-- The check of the tag cell (R35, R50). -/
def takeTag (l : LaneId) (t : Transaction) (value : Byte) (s : State) : Host.Outcome State Fault Refusal :=
  match tagOfCell value with
  | none => .next (endTransaction l .tagError t.cellIndex 9 s)
  | some tag => .next (continueWith l { t with tag := some tag } 2 s)

/-- The length rule under which the responses of a slot come (R3). -/
def SlotRecord.lengthRule : SlotRecord → Option LengthRule
  | .polled r => some r.rule
  | .contended r => some r.rule
  | .undefined | .published _ => none

/-- The checks of the header cell, in the three steps of R36. -/
def takeHeader (l : LaneId) (t : Transaction) (value : Byte) (s : State) : Host.Outcome State Fault Refusal :=
  match headerOfCell value with
  | none => .next (endTransaction l .headerError t.cellIndex 9 s)
  | some (length, attention) =>
    match (s.slot ⟨l, t.slot⟩).lengthRule with
    | none => .fault .noLengthRule
    | some rule =>
      if rule.admits length then
        .next (continueWith l { t with header := some { length, attention } } (t.cellIndex + 1) s)
      else .next (endTransaction l .lengthMismatch t.cellIndex 9 s)

/-- A data cell is accumulated (R37). -/
def takeData (l : LaneId) (t : Transaction) (value : Byte) (s : State) : Host.Outcome State Fault Refusal :=
  .next (continueWith l { t with data := t.data ++ [value] } (t.cellIndex + 1) s)

/-- The CRC-8 of the cells received: the tag cell on a contended slot, the header cell, the data cells (R37). -/
def Transaction.responseCrc (t : Transaction) : Byte :=
  crc8 t.slot
    ((t.tag.map fun n => numberCell n.toNat).toList ++ (t.header.map fun h => headerCell h.length h.attention).toList ++ t.data)

/-- The comparison of the check cell: a polled transaction ends as DONE or CHECK_ERROR, a contended one goes to its pending window whether or
not the check matched (R37, R49, R50). -/
def takeCheck (l : LaneId) (t : Transaction) (value : Byte) (s : State) : Host.Outcome State Fault Refusal :=
  let matched := value == t.responseCrc
  if t.kind = .contended then
    .next (s.onLane l fun L =>
      { L with
        transaction := some { t with phase := .window, checkMatched := matched }
        line := { L.line with position := some (t.cellIndex, 9) } })
  else .next (endTransaction l (if matched then .done else .checkError) t.cellIndex 9 s)

/-- A response cell received in RECEIVE, where it is the cell awaited and agrees with the bits of it already taken. -/
def receiveCell (l : LaneId) (awaited : Transaction → Bool) (cell : Samples 9) (s : State)
    (check : LaneId → Transaction → Byte → State → Host.Outcome State Fault Refusal) : Host.Outcome State Fault Refusal :=
  inPhase l .receive s fun t =>
    let levels := cell.levels (s.lane l).config.sampleFilter
    if awaited t && (s.lane l).line.fits levels then takeCell l t levels s check else .refused .wrongCell

/-- TAG_CELL_RECEIVED (R35, R50). -/
def execTagCellReceived (l : LaneId) (cell : Samples 9) (s : State) : Host.Outcome State Fault Refusal :=
  receiveCell l Transaction.awaitsTag cell s takeTag

/-- HEADER_CELL_RECEIVED (R36). -/
def execHeaderCellReceived (l : LaneId) (cell : Samples 9) (s : State) : Host.Outcome State Fault Refusal :=
  receiveCell l Transaction.awaitsHeader cell s takeHeader

/-- DATA_CELL_RECEIVED (R37). -/
def execDataCellReceived (l : LaneId) (cell : Samples 9) (s : State) : Host.Outcome State Fault Refusal :=
  receiveCell l Transaction.awaitsData cell s takeData

/-- CHECK_CELL_RECEIVED (R37, R49, R50). -/
def execCheckCellReceived (l : LaneId) (cell : Samples 9) (s : State) : Host.Outcome State Fault Refusal :=
  receiveCell l Transaction.awaitsCheck cell s takeCheck

/-- The check that applies to the cell awaited (R33). -/
def takeAwaited (l : LaneId) (t : Transaction) (value : Byte) (s : State) : Host.Outcome State Fault Refusal :=
  if t.awaitsTag then takeTag l t value s
  else if t.awaitsHeader then takeHeader l t value s
  else if t.awaitsData then takeData l t value s
  else takeCheck l t value s

/-- One bit of the cell being received, behind the bits already taken: the ninth completes the cell (R33). -/
def takeBit (l : LaneId) (t : Transaction) (bits : List Bool) (dominant : Bool) (s : State) :
    Host.Outcome State Fault Refusal :=
  let bits := bits ++ [!dominant]
  if bits.length = 9 then takeCell l t (levelsOf bits) s takeAwaited
  else
    .next (s.onLine l fun x =>
      { (if dominant then x.dominantBit else x.recessiveFor 1) with
        position := some (t.cellIndex, bits.length), cell := some bits })

/-- GAP_TIMEOUT: the gap limit passes after a response cell (R34). It does not apply before the first cell, nor within a cell. -/
def execGapTimeout (l : LaneId) (s : State) : Host.Outcome State Fault Refusal :=
  inPhase l .receive s fun t =>
    if (t.tag.isNone && t.header.isNone) || (s.lane l).line.cell.isSome then .refused .wrongCell
    else
      .next (endTransaction l .gapTimeout t.cellIndex 0
        (s.onLane l fun L => L.onLine fun x => x.recessiveFor (L.config.gapLimit - x.waited)))

/-- The pending window ends with a level: the transaction ends as DONE or CHECK_ERROR (R39, R50). -/
def endWindow (l : LaneId) (t : Transaction) (seen : Bool) (s : State) : State :=
  let s := s.onLane l fun L =>
    { L with
      transaction := some { t with pendingResult := if seen then .seen else .notSeen }
      line := if seen then L.line.dominantBit else L.line.recessiveFor 1 }
  endTransaction l (if t.checkMatched then .done else .checkError) t.cellIndex 9 s

/-- PENDING_WINDOW_END: the window is sampled (R39, R50). -/
def execPendingWindowEnd (l : LaneId) (window : Samples 1) (s : State) : Host.Outcome State Fault Refusal :=
  inPhase l .window s fun t => .next (endWindow l t (window.dominant (s.lane l).config.sampleFilter) s)

end Sys2Proof.Machine
end

