-- ==== Sys2Proof/Machine/ConditionEvents.lean ====
section
/-!
DEFINITION. The line events that change the condition of a lane or a wait of it: stuck faults, the pause, sleep, wake and recovery
(R43, R44, R81, R120 to R129), and the dominant bit time (R26).
-/

namespace Sys2Proof.Machine

open Sys2Proof

/-- A stuck fault is raised on a lane: it reaches the lane by its condition and by the phase of its transaction (R43, R64, R125;
DEDUCED, log entry 16). -/
def raiseStuck (l : LaneId) (s : State) : Host.Outcome State Fault Refusal :=
  let stuck := s.onLine l LineState.stuck
  match (s.lane l).transaction with
  | some t => if t.phase = .gap then .next (endTransaction l .lineStuck 0 0 stuck) else .refused .stuckCannotArise
  | none =>
    if (s.lane l).line.driving then .refused .lineDriven
    else
      match (s.lane l).condition with
      | .faulted => .next stuck
      | .sleepPending => .refused .stuckCannotArise
      | .halted | .running | .halting | .sleeping | .waking => .next (enterFaulted l .stuck stuck)

/-- STUCK_FAULT (R43, R125). -/
def execStuckFault (l : LaneId) (s : State) : Host.Outcome State Fault Refusal := raiseStuck l s

/-- A lane event that one condition knows. -/
def inCondition (l : LaneId) (c : Condition) (s : State) (k : Host.Outcome State Fault Refusal) :
    Host.Outcome State Fault Refusal :=
  if (s.lane l).condition = c then k else .refused .wrongCondition

/-- PAUSE_COMPLETE: the pause has reached the turnaround gap; it becomes absent and the engine chooses (R81, R87). -/
def execPauseComplete (l : LaneId) (s : State) : Host.Outcome State Fault Refusal :=
  inCondition l .running s <|
    match (s.lane l).round.pause with
    | none => .refused .noPause
    | some counted =>
      .next (choose l (s.onLane l fun L =>
        { L with
          line := L.line.recessiveFor (L.config.turnaroundGap - counted), round := { L.round with pause := none } }))

/-- An event of the sleep release wait: the lane is SLEEP_PENDING and its sleep call has ended DONE (R120). -/
def inReleaseWait (l : LaneId) (s : State) (k : Host.Outcome State Fault Refusal) : Host.Outcome State Fault Refusal :=
  inCondition l .sleepPending s (if s.busy l then .refused .noReleaseWait else k)

/-- SLEEP_RELEASE_COMPLETE: the lane enters SLEEPING and its queued one-shots complete with LANE_ASLEEP (R102, R120). -/
def execSleepReleaseComplete (l : LaneId) (s : State) : Host.Outcome State Fault Refusal :=
  inReleaseWait l s <|
    .next (completeQueued l .laneAsleep (changeCondition l .sleeping .request
      (s.onLane l fun L => L.onLine fun x =>
        { x.recessiveFor (L.config.turnaroundGap - x.waited) with waited := 0 })))

/-- A dominant bit time in the sleep release wait: the lane enters WAKING (R120). -/
def objectToSleep (l : LaneId) (s : State) : State :=
  enterWaking l .busWake (s.onLine l fun x => { x.firstDominant with waited := 0 })

/-- SLEEP_RELEASE_WAKE (R120). -/
def execSleepReleaseWake (l : LaneId) (s : State) : Host.Outcome State Fault Refusal :=
  inReleaseWait l s (.next (objectToSleep l s))

/-- A dominant run of `run` bit times has ended on a SLEEPING lane: one of 3 to 29 wakes the lane, one of 1 or 2 has no effect. The recessive
bit time that ended it is the first of a run (R44, R123). -/
def endResponderRun (l : LaneId) (run : Nat) (s : State) : State :=
  let ended := s.onLine l fun x => { x with dominantRun := 0, recessiveRun := 1 }
  if 3 ≤ run then enterWaking l .busWake ended else ended

/-- RESPONDER_WAKE (R44, R123). The operand `run` is log entry 18 (DESIGN CHOICE). -/
def execResponderWake (l : LaneId) (run : Nat) (s : State) : Host.Outcome State Fault Refusal :=
  inCondition l .sleeping s <|
    if run = 0 ∨ 30 ≤ run then .refused .notAResponderRun else .next (endResponderRun l run s)

/-- WAKE_PULSE_END: the line is released and the wake settle begins (R122). -/
def execWakePulseEnd (l : LaneId) (s : State) : Host.Outcome State Fault Refusal :=
  inCondition l .waking s <|
    if (s.lane l).line.driving then .next (s.onLine l LineState.release) else .refused .noWakePulse

/-- WAKE_SETTLE_COMPLETE: the lane leaves WAKING for its resume condition (R124). -/
def execWakeSettleComplete (l : LaneId) (s : State) : Host.Outcome State Fault Refusal :=
  inCondition l .waking s <|
    if (s.lane l).line.driving then .refused .lineDriven
    else .next (enterResume l .settled (s.onLane l fun L => L.onLine fun x => x.reach L.config.wakeSettle))

/-- RECOVERY_QUIET_COMPLETE: the recessive run reaches 128 in FAULTED; the lane leaves where auto-recover is on or recovery is armed
(R127, R128). -/
def execRecoveryQuietComplete (l : LaneId) (s : State) : Host.Outcome State Fault Refusal :=
  inCondition l .faulted s <|
    let quiet := s.onLine l fun x => x.reach recoveryQuiet
    if (s.lane l).config.autoRecover || (s.lane l).recoveryArmed then .next (leaveFaulted l quiet) else .next quiet

/-- A bit time read dominant that the engine does not drive: the recessive run returns to 0, and with it every wait counted on it, a pause
too (R26, R28, R81). The bit time that brings the dominant run to 30 raises a stuck fault (R43); a run that stands at 30 raises no second
one. -/
def countDominant (l : LaneId) (s : State) : Host.Outcome State Fault Refusal :=
  if (s.lane l).line.dominantRun = 29 then raiseStuck l s
  else
    .next (s.onLane l fun L =>
      { L with line := L.line.dominantBit, round := { L.round with pause := L.round.pause.map fun _ => 0 } })

/-- A bit time read recessive: the dominant run returns to 0, the recessive run counts on, and a pause with it, up to the turnaround gap
(R26, R81). -/
def countRecessive (l : LaneId) (s : State) : State :=
  s.onLane l fun L =>
    { L with
      line := L.line.recessiveFor 1
      round := { L.round with pause := L.round.pause.map fun n => min (n + 1) L.config.turnaroundGap } }

/-- One bit time on a lane with no transaction in progress. The bits of a wake pulse are neither compared nor counted in the runs (R26, R41,
R122); a dominant bit time in the sleep release wait wakes the lane (R120), and a recessive one that ends a run on a SLEEPING lane is that
of a responder's wake (R123). -/
def betweenTransactions (l : LaneId) (dominant : Bool) (s : State) : Host.Outcome State Fault Refusal :=
  let L := s.lane l
  if L.line.driving then .next (s.onLine l LineState.waitOn)
  else
    match L.condition with
    | .sleepPending =>
      .next (if dominant then objectToSleep l s else (countRecessive l s).onLine l LineState.waitOn)
    | .sleeping =>
      if dominant then countDominant l s
      else if 1 ≤ L.line.dominantRun ∧ L.line.dominantRun < 30 then .next (endResponderRun l L.line.dominantRun s)
      else .next (countRecessive l s)
    | .halted | .running | .halting | .waking | .faulted =>
      if dominant then countDominant l s else .next (countRecessive l s)

/-- One bit time on a lane with a transaction in progress, by its phase: a bit sent is read back, a dominant level while a cell is awaited
begins it, and within a cell it is the cell's next bit; the pending window is one bit time (R32, R33, R34, R39, R41, R48). -/
def inTransaction (l : LaneId) (t : Transaction) (dominant : Bool) (s : State) : Host.Outcome State Fault Refusal :=
  let awaits : Host.Outcome State Fault Refusal :=
    .next (if dominant then startCell l t s else (countRecessive l s).onLine l LineState.waitOn)
  match t.phase with
  | .gap => if dominant then countDominant l s else .next (countRecessive l s)
  | .call | .send => readBack l t dominant s
  | .await => awaits
  | .receive =>
    match (s.lane l).line.cell with
    | none => awaits
    | some bits => takeBit l t bits dominant s
  | .window => .next (endWindow l t dominant s)

/-- DOMINANT_BIT_TIME: the engine takes the level of one bit time from its samples (R25) and counts it as R26 gives. A bit time of its own bits,
of a cell or of a wait has the effect of that bit; one whose samples read recessive is a recessive bit time (DESIGN CHOICE, log entry
17). -/
def execDominantBitTime (l : LaneId) (bit : Samples 1) (s : State) : Host.Outcome State Fault Refusal :=
  let dominant := bit.dominant (s.lane l).config.sampleFilter
  match (s.lane l).transaction with
  | some t => inTransaction l t dominant s
  | none => betweenTransactions l dominant s

end Sys2Proof.Machine
end

