-- ==== Sys2Proof/Machine/Operands.lean ====
section
/-!
DEFINITION. Reading the fields of the request bodies (R171, R196 and Request bodies of chapter 11), and the body lengths.
-/

namespace Sys2Proof.Machine

open Sys2Proof

/-- Whether a body length is one that R171 gives for a request code. -/
def bodyLengthOk (code : Byte) (n : Nat) : Bool :=
  if code ∈ [0x01#8, 0x02#8, 0x03#8, 0x36#8] then n == 0
  else if code ∈ [0x04#8, 0x05#8, 0x11#8, 0x12#8, 0x13#8, 0x14#8, 0x16#8, 0x28#8, 0x2A#8, 0x2B#8, 0x35#8, 0x38#8] then n == 1
  else if code ∈ [0x15#8, 0x21#8, 0x23#8, 0x31#8, 0x39#8] then n == 2
  else if code = 0x10#8 then n == 10
  else if code = 0x20#8 then n == 7
  else if code = 0x2C#8 then n == 3
  else if code = 0x34#8 then n == 6
  else if code ∈ [0x22#8, 0x30#8] then 2 ≤ n && n ≤ 14
  else if code = 0x24#8 then 3 ≤ n && n ≤ 15
  else if code = 0x29#8 then 3 ≤ n && n ≤ 49 && n % 2 == 1
  else false

/-- A lane field: 4 to 255 name no lane (R171). -/
def laneOf (b : Byte) : Option LaneId := if h : b.toNat < 4 then some ⟨b.toNat, h⟩ else none

/-- A slot field: 32 to 255 name no slot (R171). -/
def slotOf (b : Byte) : Option SlotId := if h : b.toNat < 32 then some ⟨b.toNat, h⟩ else none

/-- A slot field where the sleep slot is refused: 1 to 31 (R2). -/
def userSlotOf (b : Byte) : Option SlotId := (slotOf b).filter (fun k => k ≠ 0)

/-- A two-byte field, low byte first. -/
def word16 (lo hi : Byte) : Nat := lo.toNat + 256 * hi.toNat

/-- A yes/no, on/off or option field: 0 or 1. -/
def flagOf (b : Byte) : Option Bool := if b = 0 then some false else if b = 1 then some true else none

def bitRateOf (b : Byte) : Option BitRate :=
  if b = 0 then some .bps1200 else if b = 1 then some .bps2400 else if b = 2 then some .bps4800
  else if b = 3 then some .bps9600 else if b = 4 then some .bps19200 else none

def reportModeOf (b : Byte) : Option ReportMode :=
  if b = 0 then some .silent else if b = 1 then some .onChange else if b = 2 then some .every else none

def routeModeOf (b : Byte) : Option RouteMode :=
  if b = 0 then some .always else if b = 1 then some .onChange else none

/-- A length form and n: EXACT or UP_TO, 0 to 12 (R181). -/
def lengthRuleOf (form n : Byte) : Option LengthRule :=
  if n.toNat ≤ 12 then
    if form = 0 then some (.exact n.toNat) else if form = 1 then some (.upTo n.toNat) else none
  else none

/-- A field with a range. -/
def inRange (b : Byte) (low high : Nat) : Option Nat := if low ≤ b.toNat ∧ b.toNat ≤ high then some b.toNat else none

/-- The nine configuration bytes of CONFIG_LANE, where every one holds a value accepted (R132, R177). -/
def laneConfigOf : List Byte → Option LaneConfig
  | [rate, filter, timeout, gap, turnaround, probe, recover, pulse, settle] => do
    let bitRate ← bitRateOf rate
    let sampleFilter ← flagOf filter
    let responseTimeout ← inRange timeout 2 40
    let gapLimit ← inRange gap 1 12
    let turnaroundGap ← inRange turnaround 2 16
    let probeInterval ← inRange probe 1 32
    let autoRecover ← flagOf recover
    let wakePulse ← inRange pulse 4 24
    let wakeSettle ← inRange settle 16 255
    pure { bitRate, sampleFilter, responseTimeout, gapLimit, turnaroundGap, probeInterval, autoRecover, wakePulse, wakeSettle }
  | _ => none

/-- The exponent and phase of a divider-phase byte: an exponent of 5 to 15 and a phase not less than the divider are refused
(Request bodies; R74). -/
def timingOf (b : Byte) : Option (Fin 5 × Nat) :=
  let phase := b.toNat / 16
  if h : b.toNat % 16 < 5 then
    if phase < 2 ^ (b.toNat % 16) then some (⟨b.toNat % 16, h⟩, phase) else none
  else none

/-- What DEFINE_SLOT asks for, after steps 3 to 7 of R181: the kind with its parameters. -/
inductive SlotSpec where
  | polled (rule : LengthRule) (mode : ReportMode) (absenceLimit : Nat)
  | contended (rule : LengthRule) (mode : ReportMode) (budget : Nat)
  | published (length : Nat)
  deriving DecidableEq, Repr

/-- Steps 3 to 7 of R181; each of them refuses with BAD_VALUE. -/
def slotSpecOf (kind form n mode param : Byte) : Option SlotSpec := do
  let rule ← lengthRuleOf form n
  let mode ← reportModeOf mode
  if kind = 1 then
    if param = 255 then some (.polled rule mode 3) else (inRange param 1 15).map (.polled rule mode ·)
  else if kind = 2 then
    if param = 255 then some (.contended rule mode 3) else (inRange param 0 7).map (.contended rule mode ·)
  else if kind = 3 then
    match rule with
    | .exact m => if mode = .silent ∧ param = 0 then some (.published m) else none
    | .upTo _ => none
  else none

end Sys2Proof.Machine
end

