-- ==== Sys2Proof/Machine/Handler.lean ====
section
/-!
DEFINITION. The request handler and the reply cache (R157 to R161): what every request row shares.
-/

namespace Sys2Proof.Machine

open Sys2Proof

/-- What executing a request answers: a status and the reply fields (R159, R171). -/
structure Answer where
  status : Status
  fields : List Byte
  deriving DecidableEq, Repr

/-- An accepted request: OK and its reply fields. -/
def accept (fields : List Byte) (s : State) : State × Answer := (s, ⟨.ok, fields⟩)

/-- A refused request: the refusal status alone, and no state changed (R157, R171). -/
def refuse (status : Status) (s : State) : State × Answer := (s, ⟨status, []⟩)

/-- Changes the Host Link Interface. -/
def State.onHli (s : State) (f : Hli → Hli) : State := { s with hli := f s.hli }

/-- The cache entry that a request matches (R161). A request with tag 0 is never matched (R160). -/
def Hli.cached (h : Hli) (f : Frame) : Option CacheEntry :=
  if f.tag = 0 then none
  else h.cache.find? fun e => e.reply.tag = f.tag ∧ e.reply.code = f.kind ∧ e.bodyCrc = crc16 f.body

/-- Adds an entry as the newest: an entry with its tag is removed, otherwise the oldest if 9 would be held (R160). -/
def insertCache (cache : List CacheEntry) (e : CacheEntry) : List CacheEntry :=
  if cache.any (fun c => c.reply.tag = e.reply.tag) then cache.filter (fun c => c.reply.tag ≠ e.reply.tag) ++ [e]
  else if cache.length < 8 then cache ++ [e]
  else cache.drop 1 ++ [e]

/-- Step 5 of R157: an entry for every request with a tag other than 0, except an accepted LINK_RESET. -/
def Hli.remember (f : Frame) (r : Reply) (h : Hli) : Hli :=
  if f.tag = 0 ∨ (f.kind = 0x03 ∧ r.status = .ok) then h
  else { h with cache := insertCache h.cache { bodyCrc := crc16 f.body, reply := r } }

/-- Step 6 of R157: the reply joins the reply queue as the newest. -/
def Hli.queueReply (r : Reply) (h : Hli) : Hli := { h with replies := h.replies ++ [r] }

/-- A duplicate is answered from the cache and counted (R161). -/
def answerDuplicate (e : CacheEntry) (s : State) : State :=
  s.onHli fun h =>
    Hli.queueReply e.reply { h with counts := { h.counts with duplicate := bump 65535 h.counts.duplicate } }

/-- Steps 2 to 6 of R157 for a request that is no duplicate: `act` makes the checks and effects of its entry. -/
def carryOut (f : Frame) (act : List Byte → State → State × Answer) (s : State) : State :=
  let (s', a) := act f.body s
  let r : Reply := { tag := f.tag, code := f.kind, status := a.status, fields := a.fields }
  s'.onHli fun h => Hli.queueReply r (h.remember f r)

/-- (DESIGN CHOICE, log entry 5.) The request handler takes the oldest frame of the receive buffer, when the handler is not stopped and the reply queue has a free
place, and carries it through the steps of R157. -/
def handle (f : Frame) (act : List Byte → State → State × Answer) (s : State) : Host.Outcome State Fault Refusal :=
  if s.hli.handlerStopped then .refused .handlerStopped
  else if 4 ≤ s.hli.replies.length then .refused .replyQueueFull
  else if s.hli.buffer.head? = some f then
    let s := s.onHli fun h => { h with buffer := h.buffer.tail }
    match s.hli.cached f with
    | some e => .next (answerDuplicate e s)
    | none => .next (carryOut f act s)
  else .refused .notOldestFrame

/-- Step 3 of R157 before step 4: a body length that R171 does not give for the code is refused with BAD_LENGTH. -/
def checkLength (code : Byte) (act : List Byte → State → State × Answer) (body : List Byte) (s : State) : State × Answer :=
  if bodyLengthOk code body.length then act body s else refuse .badLength s

/-- The request handler takes a frame whose code the Request Catalogue gives. -/
def handleRequest (code tag : Byte) (body : List Byte) (act : List Byte → State → State × Answer) (s : State) :
    Host.Outcome State Fault Refusal :=
  handle ⟨code, tag, body⟩ (checkLength code act) s

/-- The first check of most entries: the lane is 0 to 3, or BAD_LANE (R171). -/
def withLane (b : Byte) (s : State) (k : LaneId → State × Answer) : State × Answer :=
  match laneOf b with
  | none => refuse .badLane s
  | some l => k l

/-- The next check of many entries: the slot is 1 to 31, or BAD_VALUE. -/
def withUserSlot (b : Byte) (s : State) (k : SlotId → State × Answer) : State × Answer :=
  match userSlotOf b with
  | none => refuse .badValue s
  | some slot => k slot

end Sys2Proof.Machine
end

