-- ==== Sys2Proof/Machine/LaneRequests.lean ====
section
/-!
DEFINITION. The lane requests of the Request Catalogue: CONFIG_LANE, LANE_START, LANE_HALT, LANE_SLEEP, LANE_WAKE,
READ_LANE_STATUS and CLEAR_CAPTURE.
-/

namespace Sys2Proof.Machine

open Sys2Proof

/-- CONFIG_LANE (R133, R177): the runs restart from 0 and drain owed is kept. -/
def configLane (body : List Byte) (s : State) : State × Answer :=
  match body with
  | lane :: fields =>
    withLane lane s fun l =>
      match laneConfigOf fields with
      | none => refuse .badValue s
      | some config =>
        if (s.lane l).condition = .halted then
          accept [] (s.onLane l fun L =>
            { L with config, line := { L.line with dominantRun := 0, recessiveRun := 0 } })
        else refuse .badState s
  | [] => refuse .badLength s

/-- Sets the resume condition of a lane. -/
def setResume (l : LaneId) (r : Resume) (s : State) : State := s.onLane l fun L => { L with resume := r }

/-- LANE_START or LANE_HALT in FAULTED: the resume condition, and with auto-recover off recovery is armed and the lane leaves at once
where the quiet is complete (R127, R128, R130; DEDUCED, log entry 11). -/
def requestRecovery (l : LaneId) (r : Resume) (s : State) : State :=
  let s := setResume l r s
  if (s.lane l).config.autoRecover then s
  else
    let s := s.onLane l fun L => { L with recoveryArmed := true }
    if (s.lane l).quietComplete then leaveFaulted l s else s

/-- Sets follow-ups forbidden in the transaction in progress, if there is one (R61). -/
def forbidFollowUps (l : LaneId) (s : State) : State :=
  s.onLane l fun L => { L with transaction := L.transaction.map fun t => { t with followUpsForbidden := true } }

/-- LANE_START by the condition of the lane (R116, R130). -/
def startLane (l : LaneId) (s : State) : State × Answer :=
  match (s.lane l).condition with
  | .halted => accept [] (enterRunning l .request s)
  | .running | .halting | .sleepPending => refuse .badState s
  | .sleeping | .waking => accept [] (setResume l .running s)
  | .faulted => accept [] (requestRecovery l .running s)

/-- LANE_HALT by the condition of the lane (R117, R130). -/
def haltLane (l : LaneId) (s : State) : State × Answer :=
  match (s.lane l).condition with
  | .running =>
    if s.busy l then accept [] ((forbidFollowUps l s).onLane l fun L => { L with condition := .halting })
    else accept [] (enterHalted l .request (resetRound l s))
  | .halted | .halting | .sleepPending => refuse .badState s
  | .sleeping | .waking => accept [] (setResume l .halted s)
  | .faulted => accept [] (requestRecovery l .halted s)

/-- Entry into SLEEP_PENDING; the sleep call begins at once where no transaction is in progress (R118). -/
def enterSleepPending (l : LaneId) (resume : Resume) (s : State) : State :=
  let s := changeCondition l .sleepPending .request (setResume l resume s)
  if s.busy l then s else beginSleepCall l s

/-- LANE_SLEEP by the condition of the lane (R118). -/
def sleepLane (l : LaneId) (s : State) : State × Answer :=
  match (s.lane l).condition with
  | .halted => accept [] (enterSleepPending l .halted s)
  | .running => accept [] (enterSleepPending l .running (resetRound l (forbidFollowUps l s)))
  | .halting | .sleepPending | .sleeping | .waking | .faulted => refuse .badState s

/-- LANE_WAKE by the condition of the lane: the wake pulse begins (R122). -/
def wakeLane (l : LaneId) (s : State) : State × Answer :=
  match (s.lane l).condition with
  | .sleeping => accept [] (enterWaking l .request (s.onLane l fun L => L.onLine LineState.startDriving))
  | .halted | .running | .halting | .sleepPending | .waking | .faulted => refuse .badState s

/-- The body of the four lane control requests: the lane alone (R178). -/
def laneAlone (k : LaneId → State → State × Answer) (body : List Byte) (s : State) : State × Answer :=
  match body with
  | [lane] => withLane lane s fun l => k l s
  | _ => refuse .badLength s

/-- READ_LANE_STATUS (R54, R179). -/
def readLaneStatus (body : List Byte) (s : State) : State × Answer :=
  match body with
  | [lane, option] =>
    withLane lane s fun l =>
      match flagOf option with
      | none => refuse .badValue s
      | some clear =>
        accept (laneFields (s.lane l))
          (if clear then s.onLane l fun L => { L with counts := { good := 0, silent := 0, faulty := 0 } } else s)
  | _ => refuse .badLength s

/-- CLEAR_CAPTURE: the capture as it stood is returned, and then emptied and armed (R57, R180). -/
def clearCapture (l : LaneId) (s : State) : State × Answer :=
  accept (captureBlock (s.lane l).capture (s.lane l).faultsSince)
    (s.onLane l fun L => { L with capture := none, faultsSince := 0 })

def execConfigLane (tag : Byte) (body : List Byte) (s : State) : Host.Outcome State Fault Refusal :=
  handleRequest 0x10 tag body configLane s

def execLaneStart (tag : Byte) (body : List Byte) (s : State) : Host.Outcome State Fault Refusal :=
  handleRequest 0x11 tag body (laneAlone startLane) s

def execLaneHalt (tag : Byte) (body : List Byte) (s : State) : Host.Outcome State Fault Refusal :=
  handleRequest 0x12 tag body (laneAlone haltLane) s

def execLaneSleep (tag : Byte) (body : List Byte) (s : State) : Host.Outcome State Fault Refusal :=
  handleRequest 0x13 tag body (laneAlone sleepLane) s

def execLaneWake (tag : Byte) (body : List Byte) (s : State) : Host.Outcome State Fault Refusal :=
  handleRequest 0x14 tag body (laneAlone wakeLane) s

def execReadLaneStatus (tag : Byte) (body : List Byte) (s : State) : Host.Outcome State Fault Refusal :=
  handleRequest 0x15 tag body readLaneStatus s

def execClearCapture (tag : Byte) (body : List Byte) (s : State) : Host.Outcome State Fault Refusal :=
  handleRequest 0x16 tag body (laneAlone clearCapture) s

end Sys2Proof.Machine
end

