-- ==== Sys2Proof/Machine/PartRequests.lean ====
section
/-!
DEFINITION. The link and part requests of the Request Catalogue: HELLO, SOFT_RESET, LINK_RESET, READ_LINK_STATUS,
SET_SILENCE_LIMIT, and the answer to an unknown code.
-/

namespace Sys2Proof.Machine

open Sys2Proof

/-- The silence timer from a restart: it runs while the limit is above 0 and the part is not HOST_SILENT (R168). -/
def restartedTimer (limit : Byte) (hostSilent : Bool) : SilenceTimer :=
  if limit ≠ 0 ∧ !hostSilent then .running 0 else .stopped

/-- HELLO (R172). -/
def hello (_body : List Byte) (s : State) : State × Answer := accept helloFields s

/-- SOFT_RESET as it is executed: the handler is stopped until the reset takes effect (R165, R173). -/
def softReset (_body : List Byte) (s : State) : State × Answer :=
  accept [] (s.onHli fun h => { h with handlerStopped := true })

/-- LINK_RESET (R146, R166, R174). -/
def linkReset (_body : List Byte) (s : State) : State × Answer :=
  let reports := s.reports.linkReset
  accept [byte reports.unsent.length]
    { s with reports, hli := { s.hli with cache := [], credit := 0, nextReportSeq := 1 } }

/-- READ_LINK_STATUS (R167, R175). -/
def readLinkStatus (body : List Byte) (s : State) : State × Answer :=
  match body with
  | [option] =>
    match flagOf option with
    | none => refuse .badValue s
    | some clear =>
      accept (linkFields s.hli)
        (if clear then s.onHli fun h => { h with counts := { framing := 0, crc := 0, overrun := 0, duplicate := 0 } } else s)
  | _ => refuse .badLength s

/-- SET_SILENCE_LIMIT (R168, R176); while the part is HOST_SILENT the timer stays stopped (DEDUCED, log entry 12). -/
def setSilenceLimit (body : List Byte) (s : State) : State × Answer :=
  match body with
  | [limit] =>
    accept [] (s.onHli fun h => { h with silenceLimit := limit, silenceTimer := restartedTimer limit h.hostSilent })
  | _ => refuse .badLength s

/-- UNKNOWN_REQUEST: a frame whose kind is no catalogue code is answered without its body being examined (R157, R171). -/
def execUnknownRequest (kind tag : Byte) (body : List Byte) (s : State) : Host.Outcome State Fault Refusal :=
  if kind ∈ requestCodes then .refused .aCatalogueCode
  else handle ⟨kind, tag, body⟩ (fun _ s => refuse .unknownRequest s) s

def execHello (tag : Byte) (body : List Byte) (s : State) : Host.Outcome State Fault Refusal :=
  handleRequest 0x01 tag body hello s

def execSoftReset (tag : Byte) (body : List Byte) (s : State) : Host.Outcome State Fault Refusal :=
  handleRequest 0x02 tag body softReset s

def execLinkReset (tag : Byte) (body : List Byte) (s : State) : Host.Outcome State Fault Refusal :=
  handleRequest 0x03 tag body linkReset s

def execReadLinkStatus (tag : Byte) (body : List Byte) (s : State) : Host.Outcome State Fault Refusal :=
  handleRequest 0x04 tag body readLinkStatus s

def execSetSilenceLimit (tag : Byte) (body : List Byte) (s : State) : Host.Outcome State Fault Refusal :=
  handleRequest 0x05 tag body setSilenceLimit s

end Sys2Proof.Machine
end

