-- ==== Sys2Proof/Machine/ResetCommands.lean ====
section
/-!
DEFINITION. The power-on reset and the pin reset, and what a SOFT_RESET does when it takes effect.
-/

namespace Sys2Proof.Machine

open Sys2Proof

/-- The host link rate that HRATE1 (bit 1) and HRATE0 (bit 0) select (Signals). -/
def rateOf (pins : BitVec 2) : HostRate :=
  if pins = 0 then .baud115200 else if pins = 1 then .baud230400 else if pins = 2 then .baud460800 else .baud921600

/-- The cause that READY carries after a pin reset: a READY of a power-on reset that still waits keeps POWER (R164). Where a SOFT_RESET
is pending as well, R165 says that READY carries the cause of the pin reset; the model keeps POWER there too (DESIGN CHOICE, log
entry 29). -/
def causeAfterPin (waiting : Option ResetCause) : ResetCause := if waiting = some .power then .power else .pin

/-- SOFT_RESET takes effect: every block takes its reset values, READY waits with cause SOFT, and the rate in use is kept
(R66, R150, R164, R165). -/
def State.softResetEffect (s : State) : State := State.afterReset s.hli.rate .soft s.pending

/-- POWER_ON_RESET (R7, R134, R150, R163, R164). -/
def execPowerOnReset (hrate : BitVec 2) (s : State) : Host.Outcome State Fault Refusal :=
  .next (State.afterReset (rateOf hrate) .power s.pending)

/-- PIN_RESET (R7, R67, R134, R150, R163, R164). -/
def execPinReset (hrate : BitVec 2) (s : State) : Host.Outcome State Fault Refusal :=
  .next (State.afterReset (rateOf hrate) (causeAfterPin s.hli.ready) s.pending)

end Sys2Proof.Machine
end

