-- ==== Sys2Proof/Machine/LinkEvents.lean ====
section
/-!
DEFINITION. What happens on the host link of itself: reception (R153 to R155), the silence guard (R168 to R170) and the
transmitter (R143, R162, R164, R165).
-/

namespace Sys2Proof.Machine

open Sys2Proof

/-! ## Reception -/

/-- FRAME_START_BYTE: a hunting receiver takes 0xC3 as the start byte and passes over every other byte and every bad byte (R153). -/
def execFrameStartByte (s : State) (levels : LinkLevels := linkLevels 0xC3) : Host.Outcome State Fault Refusal :=
  match s.hli.receiver with
  | .hunting =>
    if linkByte levels = some 0xC3 then .next (s.onHli fun h => { h with receiver := .insideFrame }) else .next s
  | .insideFrame => .refused .receiverInsideFrame

/-- A frame in reception comes to its end: only a receiver that is inside a frame knows that event (R153). -/
def insideFrame (s : State) (k : State → Host.Outcome State Fault Refusal) : Host.Outcome State Fault Refusal :=
  match s.hli.receiver with
  | .hunting => .refused .receiverHunting
  | .insideFrame => k (s.onHli fun h => { h with receiver := .hunting })

/-- Counts a frame discarded for its length, a gap or a bad byte (R154, R167). -/
def countFraming (h : Hli) : Hli := { h with counts := { h.counts with framing := bump 65535 h.counts.framing } }

/-- The silence guard takes a good frame: HOST_SILENT ends with its report, and the timer restarts (step 1 of R155, R170). -/
def guardTakesFrame (s : State) : State :=
  let s := if s.hli.hostSilent then State.report (s.onHli fun h => { h with hostSilent := false }) (.hostSilence false) else s
  s.onHli fun h => { h with silenceTimer := restartedTimer h.silenceLimit false }

/-- A good frame joins the receive buffer, or is discarded as an overrun (step 2 of R155). -/
def Hli.receive (h : Hli) (f : Frame) : Hli :=
  if h.buffer.length < 2 then { h with buffer := h.buffer ++ [f] }
  else { h with counts := { h.counts with overrun := bump 65535 h.counts.overrun } }

/-- GOOD_FRAME (R155). -/
def execGoodFrame (bytes : List LinkLevels) (s : State) : Host.Outcome State Fault Refusal :=
  insideFrame s fun s =>
    match (readBytes bytes).bind parseFrame with
    | none => .refused .notAGoodFrame
    | some f => .next ((guardTakesFrame s).onHli fun h => h.receive f)

/-- FRAME_DISCARD (R154): a bad byte, or a length byte outside 2 to 66; a length byte of 0xC3 is itself taken as a new start byte. -/
def execFrameDiscard (found : DiscardedByte) (s : State) : Host.Outcome State Fault Refusal :=
  insideFrame s fun s =>
    match linkByte found.levels with
    | none => .next (s.onHli countFraming)
    | some b =>
      if !found.isLength || lengthByteOk b then .refused .byteWithoutFault
      else if b = 0xC3 then .next (s.onHli fun h => { countFraming h with receiver := .insideFrame })
      else .next (s.onHli countFraming)

/-- CRC_MISMATCH (R154). -/
def execCrcMismatch (bytes : List LinkLevels) (s : State) : Host.Outcome State Fault Refusal :=
  insideFrame s fun s =>
    if (readBytes bytes).any crcFails then .next (s.onHli fun h => { h with counts := { h.counts with crc := bump 65535 h.counts.crc } })
    else .refused .notACrcMismatch

/-- FRAME_GAP_TIMEOUT (R154). -/
def execFrameGapTimeout (s : State) : Host.Outcome State Fault Refusal :=
  insideFrame s fun s => .next (s.onHli countFraming)

/-! ## The silence guard -/

/-- HOST_SILENCE_BEGIN (R21, R169). -/
def execHostSilenceBegin (s : State) : Host.Outcome State Fault Refusal :=
  match s.hli.silenceTimer with
  | .stopped => .refused .silenceTimerStopped
  | .running _ =>
    let s := s.onHli fun h => { h with hostSilent := true, silenceTimer := .stopped }
    .next (s.applyFailsafe.report (.hostSilence true))

/-! ## The transmitter -/

/-- A frame begins on HTX, when none is in transmission (R162). -/
def whenIdle (s : State) (k : Host.Outcome State Fault Refusal) : Host.Outcome State Fault Refusal :=
  match s.hli.transmitting with
  | some _ => .refused .transmitterBusy
  | none => k

/-- SEND_READY (R162, R164). -/
def execSendReady (s : State) : Host.Outcome State Fault Refusal :=
  whenIdle s <|
    match s.hli.ready with
    | none => .refused .notChosenByArbiter
    | some cause => .next (s.onHli fun h => { h with transmitting := some (.ready cause) })

/-- SEND_REPLY: the oldest reply begins and its place is freed (R159, R162). -/
def execSendReply (s : State) : Host.Outcome State Fault Refusal :=
  whenIdle s <|
    match s.hli.ready, s.hli.replies with
    | none, r :: rest => .next (s.onHli fun h => { h with replies := rest, transmitting := some (.reply r) })
    | _, _ => .refused .notChosenByArbiter

/-- SEND_REPORT: the oldest pending record is numbered, becomes in flight and is sent, and the credit falls by one (R143, R162). -/
def execSendReport (s : State) : Host.Outcome State Fault Refusal :=
  whenIdle s <|
    match s.hli.ready, s.hli.replies, s.reports.unsent with
    | none, [], r :: rest =>
      if s.hli.credit = 0 then .refused .notChosenByArbiter
      else
        let sent : SentReport := { seq := s.hli.nextReportSeq, report := r }
        .next
          { s with
            reports := { s.reports with inFlight := s.reports.inFlight ++ [sent], unsent := rest }
            hli := { s.hli with
              credit := s.hli.credit - 1, nextReportSeq := nextNumber s.hli.nextReportSeq
              transmitting := some (.report sent) } }
    | _, _, _ => .refused .notChosenByArbiter

/-- Whether a frame is the reply OK of the SOFT_RESET that is pending (R165). -/
def Hli.endsSoftReset (h : Hli) (f : OutFrame) : Bool :=
  match f with
  | .reply r => h.handlerStopped && r.code == 0x02 && r.status == .ok
  | .ready _ | .report _ => false

/-- FRAME_END: READY stops waiting if it was the frame sent, and a pending SOFT_RESET takes effect at the end of its reply
(R162, R164, R165). -/
def execFrameEnd (s : State) : Host.Outcome State Fault Refusal :=
  match s.hli.transmitting with
  | none => .refused .transmitterIdle
  | some f =>
    if s.hli.endsSoftReset f then .next s.softResetEffect
    else
      match f with
      | .ready _ => .next (s.onHli fun h => { h with transmitting := none, ready := none })
      | .reply _ | .report _ => .next (s.onHli fun h => { h with transmitting := none })

end Sys2Proof.Machine
end

