-- ==== Sys2Proof/Machine/OneShotRequests.lean ====
section
/-!
DEFINITION. The one-shot requests of the Request Catalogue: SEND_ONCE and WITHDRAW.
-/

namespace Sys2Proof.Machine

open Sys2Proof

/-- The conditions in which a one-shot is accepted (step 4 of R94, R101). -/
def Condition.takesOneShots : Condition → Bool
  | .halted | .running | .halting | .waking => true
  | .sleepPending | .sleeping | .faulted => false

/-- Steps 5 and 6 of R94 for the record of a defined slot: the kind of the one-shot with its data, or the refusal. -/
def oneShotOf (r : SlotRecord) (routeFed : Bool) (data : List Byte) : Except Status (OneShotKind × Option (List Byte)) :=
  match r with
  | .undefined => .error .undefinedSlot
  | .polled _ | .contended _ => if data = [] then .ok (.poll, none) else .error .badValue
  | .published p =>
    if routeFed then .error .routed
    else if data.length = p.length then .ok (.publish, some data)
    else .error .badValue

/-- Issues a handle and appends the record to the tail of the queue; a RUNNING lane with no transaction in progress chooses
(R93, R95). -/
def queueOneShot (l : LaneId) (k : SlotId) (kind : OneShotKind) (data : Option (List Byte)) (s : State) : State × Answer :=
  let handle := freeHandle s.handles s.nextHandle
  let queued :=
    State.onLane { s with nextHandle := nextNumber handle } l fun L =>
      { L with oneShots := L.oneShots ++ [{ handle, slot := k, kind, data }] }
  let s' := if (s.lane l).condition = .running ∧ !s.busy l then choose l queued else queued
  accept (le16 handle ++ [byte (s'.lane l).oneShots.length]) s'

/-- SEND_ONCE (R94, R95, R190). -/
def sendOnce (body : List Byte) (s : State) : State × Answer :=
  match body with
  | lane :: slot :: data =>
    withLane lane s fun l => withUserSlot slot s fun k =>
      if s.slot ⟨l, k⟩ = .undefined then refuse .undefinedSlot s
      else if !(s.lane l).condition.takesOneShots then refuse .badState s
      else
        match oneShotOf (s.slot ⟨l, k⟩) (s.routeFed ⟨l, k⟩) data with
        | .error e => refuse e s
        | .ok (kind, carried) =>
          if (s.lane l).oneShots.length < 8 then queueOneShot l k kind carried s else refuse .queueFull s
  | _ => refuse .badLength s

/-- Whether a lane's running one-shot holds a handle (R92). -/
def Lane.runs (L : Lane) (handle : Nat) : Bool :=
  ((L.transaction.bind Transaction.oneShot).map Prod.fst) == some handle

/-- Whether a lane's queue holds a handle. -/
def Lane.queues (L : Lane) (handle : Nat) : Bool := L.oneShots.any fun o => o.handle == handle

/-- WITHDRAW (R100, R191); it makes no choice on the lane (DEDUCED, log entry 24). -/
def withdraw (body : List Byte) (s : State) : State × Answer :=
  match body with
  | [lo, hi] =>
    let handle := word16 lo hi
    match (List.finRange 4).find? fun l => (s.lane l).queues handle with
    | some l =>
      accept [byte l.val]
        ((s.onLane l fun L => { L with oneShots := L.oneShots.eraseP fun o => o.handle == handle }).report
          (.oneShotDone l handle .withdrawn none none))
    | none =>
      if (List.finRange 4).any fun l => (s.lane l).runs handle then refuse .tooLate s else refuse .unknownHandle s
  | _ => refuse .badLength s

def execSendOnce (tag : Byte) (body : List Byte) (s : State) : Host.Outcome State Fault Refusal :=
  handleRequest 0x30 tag body sendOnce s

def execWithdraw (tag : Byte) (body : List Byte) (s : State) : Host.Outcome State Fault Refusal :=
  handleRequest 0x31 tag body withdraw s

end Sys2Proof.Machine
end

