-- ==== Sys2Proof/Machine/ReportRequests.lean ====
section
/-!
DEFINITION. The report requests of the Request Catalogue: REPORT_CREDIT and REPORT_ACK.
-/

namespace Sys2Proof.Machine

open Sys2Proof

/-- REPORT_CREDIT (R142, R194). -/
def reportCredit (body : List Byte) (s : State) : State × Answer :=
  match body with
  | [n] =>
    match inRange n 0 16 with
    | none => refuse .badValue s
    | some n =>
      let flying := s.reports.inFlight.length
      let credit := min (s.hli.credit + n) (16 - flying)
      accept [byte credit, byte flying, byte s.reports.unsent.length] (s.onHli fun h => { h with credit })
  | _ => refuse .badLength s

/-- REPORT_ACK (R144, R145, R195). -/
def reportAck (body : List Byte) (s : State) : State × Answer :=
  match body with
  | [lo, hi] =>
    match s.reports.acknowledge (word16 lo hi) with
    | none => refuse .badAck s
    | some (removed, reports) => accept [byte removed, byte reports.inFlight.length] { s with reports }
  | _ => refuse .badLength s

def execReportCredit (tag : Byte) (body : List Byte) (s : State) : Host.Outcome State Fault Refusal :=
  handleRequest 0x38 tag body reportCredit s

def execReportAck (tag : Byte) (body : List Byte) (s : State) : Host.Outcome State Fault Refusal :=
  handleRequest 0x39 tag body reportAck s

end Sys2Proof.Machine
end

