-- ==== Sys2Proof/Machine/RouteRequests.lean ====
section
/-!
DEFINITION. The route requests of the Request Catalogue: ROUTE_SET, ROUTE_CLEAR and READ_ROUTES.
-/

namespace Sys2Proof.Machine

open Sys2Proof

/-- A route index, 0 to 15. -/
def indexOf (b : Byte) : Option (Fin 16) := if h : b.toNat < 16 then some ⟨b.toNat, h⟩ else none

/-- The route held at an index. -/
def State.route (s : State) (i : Fin 16) : Option Route := s.routes[i.val]'i.isLt

/-- Puts the place at an index. -/
def State.setRoute (s : State) (i : Fin 16) (r : Option Route) : State := { s with routes := s.routes.set i.val r i.isLt }

/-- Whether a slot is the destination of a route held at an index other than the one named (step 8 of R107). -/
def State.fedElsewhere (s : State) (i : Fin 16) (dst : SlotRef) : Bool :=
  (List.finRange 16).any fun j => j ≠ i && (s.route j).any fun t => t.dst = dst

/-- Steps 5 to 8 of R107; none where the route may be set. -/
def routeRefusal (s : State) (i : Fin 16) (t : Route) : Option Status :=
  match s.slot t.src, s.slot t.dst with
  | .undefined, _ => some .undefinedSlot
  | _, .undefined => some .undefinedSlot
  | .polled { rule, .. }, .published p | .contended { rule, .. }, .published p =>
    if rule ≠ .exact p.length then some .badValue
    else if s.fedElsewhere i t.dst then some .inUse
    else none
  | _, _ => some .wrongKind

/-- ROUTE_SET (R107, R108, R192). -/
def routeSet (body : List Byte) (s : State) : State × Answer :=
  match body with
  | [index, srcLane, srcSlot, dstLane, dstSlot, mode] =>
    match indexOf index with
    | none => refuse .badValue s
    | some i => withLane srcLane s fun sl => withLane dstLane s fun dl =>
      withUserSlot srcSlot s fun sk => withUserSlot dstSlot s fun dk =>
        match routeModeOf mode with
        | none => refuse .badValue s
        | some m =>
          let t : Route := { src := ⟨sl, sk⟩, dst := ⟨dl, dk⟩, mode := m }
          match routeRefusal s i t with
          | some status => refuse status s
          | none => accept [flag (s.route i).isSome] ((s.setRoute i (some t)).clearFailsafeActive t.dst)
  | _ => refuse .badLength s

/-- ROUTE_CLEAR (R109, R193). -/
def routeClear (body : List Byte) (s : State) : State × Answer :=
  match body with
  | [index] =>
    match indexOf index with
    | none => refuse .badValue s
    | some i => accept [flag (s.route i).isSome] (s.setRoute i none)
  | _ => refuse .badLength s

/-- READ_ROUTES (R110, R193). -/
def readRoutes (_body : List Byte) (s : State) : State × Answer := accept (s.routes.toList.flatMap routePlace) s

def execRouteSet (tag : Byte) (body : List Byte) (s : State) : Host.Outcome State Fault Refusal :=
  handleRequest 0x34 tag body routeSet s

def execRouteClear (tag : Byte) (body : List Byte) (s : State) : Host.Outcome State Fault Refusal :=
  handleRequest 0x35 tag body routeClear s

def execReadRoutes (tag : Byte) (body : List Byte) (s : State) : Host.Outcome State Fault Refusal :=
  handleRequest 0x36 tag body readRoutes s

end Sys2Proof.Machine
end

