-- ==== Sys2Proof/Machine/ScheduleRequests.lean ====
section
/-!
DEFINITION. The schedule requests of the Request Catalogue: SCHED_OPEN, SCHED_ADD, SCHED_COMMIT, SCHED_DISCARD and
READ_SCHEDULE.
-/

namespace Sys2Proof.Machine

open Sys2Proof

/-- SCHED_OPEN (R73, R186): places of an earlier builder are returned, since places held are the entries held (R70). -/
def schedOpen (body : List Byte) (s : State) : State × Answer :=
  match body with
  | [lane] =>
    withLane lane s fun l =>
      let s' := s.onSchedules l fun x => { x with builder := some [] }
      accept [byte s'.poolFree] s'
  | _ => refuse .badLength s

/-- One entry of SCHED_ADD: its slot is checked before its divider and phase (R74, R187). -/
def entryOf (s : State) (l : LaneId) (slot timing : Byte) : Except Status Entry :=
  match userSlotOf slot with
  | none => .error .badValue
  | some k =>
    match s.slot ⟨l, k⟩, timingOf timing with
    | .undefined, _ => .error .undefinedSlot
    | _, none => .error .badValue
    | _, some (exponent, phase) => .ok { slot := k, exponent, phase }

/-- The entries of SCHED_ADD in the order carried; the first that fails decides the refusal (R74, R187). -/
def entriesOf (s : State) (l : LaneId) : List Byte → Except Status (List Entry)
  | slot :: timing :: rest =>
    match entryOf s l slot timing with
    | .error e => .error e
    | .ok e => (entriesOf s l rest).map (e :: ·)
  | _ => .ok []

/-- SCHED_ADD (R74, R187). -/
def schedAdd (body : List Byte) (s : State) : State × Answer :=
  match body with
  | lane :: carried =>
    withLane lane s fun l =>
      match (s.lane l).schedules.builder with
      | none => refuse .notOpen s
      | some held =>
        match entriesOf s l carried with
        | .error e => refuse e s
        | .ok entries =>
          if held.length + entries.length ≤ 48 ∧ entries.length ≤ s.poolFree then
            let s' := s.onSchedules l fun x => { x with builder := some (held ++ entries) }
            accept [byte (held.length + entries.length), byte s'.poolFree] s'
          else refuse .noSpace s
  | _ => refuse .badLength s

/-- Whether a commit taken now swaps at once: on a HALTED lane, and on a RUNNING lane with an empty active schedule and no transaction
in progress (R75, R84). -/
def Lane.swapsAtOnce (L : Lane) : Bool :=
  L.condition == .halted || (L.condition == .running && L.schedules.active.isEmpty && L.transaction.isNone)

/-- SCHED_COMMIT (R75, R84, R188); a swap onto the empty active schedule of a RUNNING lane is followed by the choice (R87). -/
def schedCommit (body : List Byte) (s : State) : State × Answer :=
  match body with
  | [lane] =>
    withLane lane s fun l =>
      match (s.lane l).schedules.builder with
      | none => refuse .notOpen s
      | some entries =>
        let staged := s.onSchedules l fun x => { x with builder := none, staged := some entries }
        if (s.lane l).swapsAtOnce then
          let swapped := swapStaged l staged
          accept [flag true] (if (s.lane l).condition = .running then choose l swapped else swapped)
        else accept [flag false] staged
  | _ => refuse .badLength s

/-- SCHED_DISCARD (R76, R188). -/
def schedDiscard (body : List Byte) (s : State) : State × Answer :=
  match body with
  | [lane] =>
    withLane lane s fun l =>
      match (s.lane l).schedules.builder with
      | none => refuse .notOpen s
      | some _ =>
        let s' := s.onSchedules l fun x => { x with builder := none }
        accept [byte s'.poolFree] s'
  | _ => refuse .badLength s

/-- The reply fields of READ_SCHEDULE (R77, R189). -/
def scheduleFields (schedule : Option (List Entry)) (start : Nat) : List Byte :=
  let entries := schedule.getD []
  let returned := (entries.drop start).take 24
  [flag schedule.isSome, byte entries.length, byte returned.length] ++ returned.flatMap Entry.bytes

/-- READ_SCHEDULE (R77, R189); schedule 0 is ACTIVE and 1 STAGED. -/
def readSchedule (body : List Byte) (s : State) : State × Answer :=
  match body with
  | [lane, which, start] =>
    withLane lane s fun l =>
      match flagOf which, inRange start 0 47 with
      | some staged, some n =>
        accept (scheduleFields (if staged then (s.lane l).schedules.staged else some (s.lane l).schedules.active) n) s
      | _, _ => refuse .badValue s
  | _ => refuse .badLength s

def execSchedOpen (tag : Byte) (body : List Byte) (s : State) : Host.Outcome State Fault Refusal :=
  handleRequest 0x28 tag body schedOpen s

def execSchedAdd (tag : Byte) (body : List Byte) (s : State) : Host.Outcome State Fault Refusal :=
  handleRequest 0x29 tag body schedAdd s

def execSchedCommit (tag : Byte) (body : List Byte) (s : State) : Host.Outcome State Fault Refusal :=
  handleRequest 0x2A tag body schedCommit s

def execSchedDiscard (tag : Byte) (body : List Byte) (s : State) : Host.Outcome State Fault Refusal :=
  handleRequest 0x2B tag body schedDiscard s

def execReadSchedule (tag : Byte) (body : List Byte) (s : State) : Host.Outcome State Fault Refusal :=
  handleRequest 0x2C tag body readSchedule s

end Sys2Proof.Machine
end

