-- ==== Sys2Proof/Machine/SlotRequests.lean ====
section
/-!
DEFINITION. The slot requests of the Request Catalogue: DEFINE_SLOT, CLEAR_SLOT, WRITE_SLOT, READ_SLOT and SET_FAILSAFE.
-/

namespace Sys2Proof.Machine

open Sys2Proof

/-- A newly defined record: the kind's parameters, and every other field at its starting value (R5). -/
def SlotSpec.record : SlotSpec → SlotRecord
  | .polled rule mode absenceLimit =>
    .polled { rule, mode, absenceLimit, data := none, seq := 0, attention := false, lastOutcome := none, missCount := 0,
              presence := .present, skipCount := 0 }
  | .contended rule mode budget =>
    .contended { rule, mode, budget, data := none, seq := 0, lastTag := none, attention := false, lastOutcome := none,
                 backlog := false }
  | .published length =>
    .published { length, data := none, seq := 0, lastOutcome := none, failsafe := none, failsafeActive := false }

/-- DEFINE_SLOT (R5, R181). -/
def defineSlot (body : List Byte) (s : State) : State × Answer :=
  match body with
  | [lane, slot, kind, form, n, mode, param] =>
    withLane lane s fun l => withUserSlot slot s fun k =>
      match slotSpecOf kind form n mode param with
      | none => refuse .badValue s
      | some spec => if s.inUse ⟨l, k⟩ then refuse .inUse s else accept [] (s.setSlot ⟨l, k⟩ spec.record)
  | _ => refuse .badLength s

/-- CLEAR_SLOT (R6, R182). -/
def clearSlot (body : List Byte) (s : State) : State × Answer :=
  match body with
  | [lane, slot] =>
    withLane lane s fun l => withUserSlot slot s fun k =>
      if s.inUse ⟨l, k⟩ then refuse .inUse s else accept [] (s.setSlot ⟨l, k⟩ .undefined)
  | _ => refuse .badLength s

/-- The checks that WRITE_SLOT and SET_FAILSAFE share: the slot is defined, PUBLISHED and the destination of no route
(R183, R185). -/
def withHostPublished (r : SlotRef) (s : State) (k : PublishedRec → State × Answer) : State × Answer :=
  match s.slot r with
  | .undefined => refuse .undefinedSlot s
  | .polled _ | .contended _ => refuse .wrongKind s
  | .published p => if s.routeFed r then refuse .routed s else k p

/-- WRITE_SLOT (R17, R22, R183). -/
def writeSlot (body : List Byte) (s : State) : State × Answer :=
  match body with
  | lane :: slot :: data =>
    withLane lane s fun l => withUserSlot slot s fun k => withHostPublished ⟨l, k⟩ s fun p =>
      if data.length = p.length then
        accept [p.seq + 1] (s.setSlot ⟨l, k⟩ (.published { p.put data with failsafeActive := false }))
      else refuse .badValue s
  | _ => refuse .badLength s

/-- READ_SLOT (R23, R184). -/
def readSlot (body : List Byte) (s : State) : State × Answer :=
  match body with
  | [lane, slot] =>
    withLane lane s fun l =>
      match slotOf slot with
      | none => refuse .badValue s
      | some k => accept (slotFields (s.slot ⟨l, k⟩) (s.routeFed ⟨l, k⟩)) s
  | _ => refuse .badLength s

/-- A published record after SET_FAILSAFE SET: with the failsafe active, the current data is replaced too and the sequence
advances (R20). -/
def PublishedRec.setFailsafe (p : PublishedRec) (data : List Byte) : PublishedRec :=
  if p.failsafeActive then { p.put data with failsafe := some data } else { p with failsafe := some data }

/-- A published record after SET_FAILSAFE CLEAR (R20). -/
def PublishedRec.clearFailsafe (p : PublishedRec) : PublishedRec := { p with failsafe := none, failsafeActive := false }

/-- SET_FAILSAFE (R20, R185); operation 0 sets and 1 clears. -/
def setFailsafe (body : List Byte) (s : State) : State × Answer :=
  match body with
  | lane :: slot :: operation :: data =>
    withLane lane s fun l => withUserSlot slot s fun k =>
      match flagOf operation with
      | none => refuse .badValue s
      | some clears => withHostPublished ⟨l, k⟩ s fun p =>
        if data.length = (if clears then 0 else p.length) then
          let p' := if clears then p.clearFailsafe else p.setFailsafe data
          accept [p'.seq, flag p'.failsafeActive] (s.setSlot ⟨l, k⟩ (.published p'))
        else refuse .badValue s
  | _ => refuse .badLength s

def execDefineSlot (tag : Byte) (body : List Byte) (s : State) : Host.Outcome State Fault Refusal :=
  handleRequest 0x20 tag body defineSlot s

def execClearSlot (tag : Byte) (body : List Byte) (s : State) : Host.Outcome State Fault Refusal :=
  handleRequest 0x21 tag body clearSlot s

def execWriteSlot (tag : Byte) (body : List Byte) (s : State) : Host.Outcome State Fault Refusal :=
  handleRequest 0x22 tag body writeSlot s

def execReadSlot (tag : Byte) (body : List Byte) (s : State) : Host.Outcome State Fault Refusal :=
  handleRequest 0x23 tag body readSlot s

def execSetFailsafe (tag : Byte) (body : List Byte) (s : State) : Host.Outcome State Fault Refusal :=
  handleRequest 0x24 tag body setFailsafe s

end Sys2Proof.Machine
end

