-- ==== Sys2Proof/Machine/Dispatch.lean ====
section
/-! DEFINITION. The dispatch: one arm per command, each a direct call of its meaning. -/

namespace Sys2Proof.Machine

open Sys2Proof

def exec (i : Instr) (s : State) : Host.Outcome State Fault Refusal :=
  match i with
  | .powerOnReset hrate => Sys2Proof.Machine.execPowerOnReset hrate s
  | .pinReset hrate => Sys2Proof.Machine.execPinReset hrate s
  | .goodFrame bytes => Sys2Proof.Machine.execGoodFrame bytes s
  | .frameDiscard found => Sys2Proof.Machine.execFrameDiscard found s
  | .crcMismatch bytes => Sys2Proof.Machine.execCrcMismatch bytes s
  | .frameGapTimeout => Sys2Proof.Machine.execFrameGapTimeout s
  | .hostSilenceBegin => Sys2Proof.Machine.execHostSilenceBegin s
  | .sendReady => Sys2Proof.Machine.execSendReady s
  | .sendReply => Sys2Proof.Machine.execSendReply s
  | .sendReport => Sys2Proof.Machine.execSendReport s
  | .frameEnd => Sys2Proof.Machine.execFrameEnd s
  | .unknownRequest kind tag body => Sys2Proof.Machine.execUnknownRequest kind tag body s
  | .hello tag body => Sys2Proof.Machine.execHello tag body s
  | .softReset tag body => Sys2Proof.Machine.execSoftReset tag body s
  | .linkReset tag body => Sys2Proof.Machine.execLinkReset tag body s
  | .readLinkStatus tag body => Sys2Proof.Machine.execReadLinkStatus tag body s
  | .setSilenceLimit tag body => Sys2Proof.Machine.execSetSilenceLimit tag body s
  | .configLane tag body => Sys2Proof.Machine.execConfigLane tag body s
  | .laneStart tag body => Sys2Proof.Machine.execLaneStart tag body s
  | .laneHalt tag body => Sys2Proof.Machine.execLaneHalt tag body s
  | .laneSleep tag body => Sys2Proof.Machine.execLaneSleep tag body s
  | .laneWake tag body => Sys2Proof.Machine.execLaneWake tag body s
  | .readLaneStatus tag body => Sys2Proof.Machine.execReadLaneStatus tag body s
  | .clearCapture tag body => Sys2Proof.Machine.execClearCapture tag body s
  | .defineSlot tag body => Sys2Proof.Machine.execDefineSlot tag body s
  | .clearSlot tag body => Sys2Proof.Machine.execClearSlot tag body s
  | .writeSlot tag body => Sys2Proof.Machine.execWriteSlot tag body s
  | .readSlot tag body => Sys2Proof.Machine.execReadSlot tag body s
  | .setFailsafe tag body => Sys2Proof.Machine.execSetFailsafe tag body s
  | .schedOpen tag body => Sys2Proof.Machine.execSchedOpen tag body s
  | .schedAdd tag body => Sys2Proof.Machine.execSchedAdd tag body s
  | .schedCommit tag body => Sys2Proof.Machine.execSchedCommit tag body s
  | .schedDiscard tag body => Sys2Proof.Machine.execSchedDiscard tag body s
  | .readSchedule tag body => Sys2Proof.Machine.execReadSchedule tag body s
  | .sendOnce tag body => Sys2Proof.Machine.execSendOnce tag body s
  | .withdraw tag body => Sys2Proof.Machine.execWithdraw tag body s
  | .routeSet tag body => Sys2Proof.Machine.execRouteSet tag body s
  | .routeClear tag body => Sys2Proof.Machine.execRouteClear tag body s
  | .readRoutes tag body => Sys2Proof.Machine.execReadRoutes tag body s
  | .reportCredit tag body => Sys2Proof.Machine.execReportCredit tag body s
  | .reportAck tag body => Sys2Proof.Machine.execReportAck tag body s
  | .gapWaitComplete lane => Sys2Proof.Machine.execGapWaitComplete lane s
  | .callComplete lane => Sys2Proof.Machine.execCallComplete lane s
  | .responseTimeout lane => Sys2Proof.Machine.execResponseTimeout lane s
  | .tagCellReceived lane cell => Sys2Proof.Machine.execTagCellReceived lane cell s
  | .headerCellReceived lane cell => Sys2Proof.Machine.execHeaderCellReceived lane cell s
  | .dataCellReceived lane cell => Sys2Proof.Machine.execDataCellReceived lane cell s
  | .checkCellReceived lane cell => Sys2Proof.Machine.execCheckCellReceived lane cell s
  | .gapTimeout lane => Sys2Proof.Machine.execGapTimeout lane s
  | .pendingWindowEnd lane window => Sys2Proof.Machine.execPendingWindowEnd lane window s
  | .publishComplete lane => Sys2Proof.Machine.execPublishComplete lane s
  | .readbackError lane ahead read => Sys2Proof.Machine.execReadbackError lane ahead read s
  | .stuckFault lane => Sys2Proof.Machine.execStuckFault lane s
  | .pauseComplete lane => Sys2Proof.Machine.execPauseComplete lane s
  | .sleepReleaseComplete lane => Sys2Proof.Machine.execSleepReleaseComplete lane s
  | .sleepReleaseWake lane => Sys2Proof.Machine.execSleepReleaseWake lane s
  | .responderWake lane run => Sys2Proof.Machine.execResponderWake lane run s
  | .wakePulseEnd lane => Sys2Proof.Machine.execWakePulseEnd lane s
  | .wakeSettleComplete lane => Sys2Proof.Machine.execWakeSettleComplete lane s
  | .recoveryQuietComplete lane => Sys2Proof.Machine.execRecoveryQuietComplete lane s
  | .frameStartByte levels => Sys2Proof.Machine.execFrameStartByte s levels
  | .responseStartBit lane start => Sys2Proof.Machine.execResponseStartBit lane start s
  | .dominantBitTime lane bit => Sys2Proof.Machine.execDominantBitTime lane bit s

end Sys2Proof.Machine
end

