-- ==== Sys2Proof/Safety.lean ====
section
/-!
DEFINITION. What the statements are about: which command takes which frame or concerns which lane, what an answered request and a
lane event leave alone, how a transaction ends, and the invariants of the part.
-/

namespace Sys2Proof

/-- The frame that a request row takes from the receive buffer; none for a row that is no request. -/
def Instr.frame : Instr → Option Frame
  | .unknownRequest kind tag body => some ⟨kind, tag, body⟩
  | .hello tag body => some ⟨0x01, tag, body⟩
  | .softReset tag body => some ⟨0x02, tag, body⟩
  | .linkReset tag body => some ⟨0x03, tag, body⟩
  | .readLinkStatus tag body => some ⟨0x04, tag, body⟩
  | .setSilenceLimit tag body => some ⟨0x05, tag, body⟩
  | .configLane tag body => some ⟨0x10, tag, body⟩
  | .laneStart tag body => some ⟨0x11, tag, body⟩
  | .laneHalt tag body => some ⟨0x12, tag, body⟩
  | .laneSleep tag body => some ⟨0x13, tag, body⟩
  | .laneWake tag body => some ⟨0x14, tag, body⟩
  | .readLaneStatus tag body => some ⟨0x15, tag, body⟩
  | .clearCapture tag body => some ⟨0x16, tag, body⟩
  | .defineSlot tag body => some ⟨0x20, tag, body⟩
  | .clearSlot tag body => some ⟨0x21, tag, body⟩
  | .writeSlot tag body => some ⟨0x22, tag, body⟩
  | .readSlot tag body => some ⟨0x23, tag, body⟩
  | .setFailsafe tag body => some ⟨0x24, tag, body⟩
  | .schedOpen tag body => some ⟨0x28, tag, body⟩
  | .schedAdd tag body => some ⟨0x29, tag, body⟩
  | .schedCommit tag body => some ⟨0x2A, tag, body⟩
  | .schedDiscard tag body => some ⟨0x2B, tag, body⟩
  | .readSchedule tag body => some ⟨0x2C, tag, body⟩
  | .sendOnce tag body => some ⟨0x30, tag, body⟩
  | .withdraw tag body => some ⟨0x31, tag, body⟩
  | .routeSet tag body => some ⟨0x34, tag, body⟩
  | .routeClear tag body => some ⟨0x35, tag, body⟩
  | .readRoutes tag body => some ⟨0x36, tag, body⟩
  | .reportCredit tag body => some ⟨0x38, tag, body⟩
  | .reportAck tag body => some ⟨0x39, tag, body⟩
  | .powerOnReset _ | .pinReset _ | .goodFrame _ | .frameDiscard _ | .crcMismatch _ | .frameGapTimeout | .hostSilenceBegin
  | .sendReady | .sendReply | .sendReport | .frameEnd | .gapWaitComplete _ | .callComplete _ | .responseTimeout _
  | .tagCellReceived _ _ | .headerCellReceived _ _ | .dataCellReceived _ _ | .checkCellReceived _ _ | .gapTimeout _
  | .pendingWindowEnd _ _ | .publishComplete _ | .readbackError _ _ _ | .stuckFault _ | .pauseComplete _
  | .sleepReleaseComplete _ | .sleepReleaseWake _ | .responderWake _ _ | .wakePulseEnd _ | .wakeSettleComplete _
  | .recoveryQuietComplete _ | .frameStartByte _ | .responseStartBit _ _ | .dominantBitTime _ _ => none

/-- The lane whose engine an event row concerns; none for the rows of the part and of the host link. -/
def Instr.lane : Instr → Option LaneId
  | .gapWaitComplete l | .callComplete l | .responseTimeout l | .tagCellReceived l _ | .headerCellReceived l _
  | .dataCellReceived l _ | .checkCellReceived l _ | .gapTimeout l | .pendingWindowEnd l _ | .publishComplete l
  | .readbackError l _ _ | .stuckFault l | .pauseComplete l | .sleepReleaseComplete l | .sleepReleaseWake l
  | .responderWake l _ | .wakePulseEnd l | .wakeSettleComplete l | .recoveryQuietComplete l | .responseStartBit l _
  | .dominantBitTime l _ => some l
  | .powerOnReset _ | .pinReset _ | .goodFrame _ | .frameDiscard _ | .crcMismatch _ | .frameGapTimeout | .hostSilenceBegin
  | .sendReady | .sendReply | .sendReport | .frameEnd | .unknownRequest _ _ _ | .hello _ _ | .softReset _ _ | .linkReset _ _
  | .readLinkStatus _ _ | .setSilenceLimit _ _ | .configLane _ _ | .laneStart _ _ | .laneHalt _ _ | .laneSleep _ _
  | .laneWake _ _ | .readLaneStatus _ _ | .clearCapture _ _ | .defineSlot _ _ | .clearSlot _ _ | .writeSlot _ _
  | .readSlot _ _ | .setFailsafe _ _ | .schedOpen _ _ | .schedAdd _ _ | .schedCommit _ _ | .schedDiscard _ _
  | .readSchedule _ _ | .sendOnce _ _ | .withdraw _ _ | .routeSet _ _ | .routeClear _ _ | .readRoutes _ _
  | .reportCredit _ _ | .reportAck _ _ | .frameStartByte _ => none

/-- The request rows whose entry checks a lane first, which their body carries as its first byte (R171 and the entries). -/
def Instr.checksLaneFirst : Instr → Bool
  | .configLane _ _ | .laneStart _ _ | .laneHalt _ _ | .laneSleep _ _ | .laneWake _ _ | .readLaneStatus _ _ | .clearCapture _ _
  | .defineSlot _ _ | .clearSlot _ _ | .writeSlot _ _ | .readSlot _ _ | .setFailsafe _ _ | .schedOpen _ _ | .schedAdd _ _
  | .schedCommit _ _ | .schedDiscard _ _ | .readSchedule _ _ | .sendOnce _ _ => true
  | _ => false

/-- The request rows that name a slot of 1 to 31 in their second body byte, after the lane (R2). -/
def Instr.namesUserSlot : Instr → Bool
  | .defineSlot _ _ | .clearSlot _ _ | .writeSlot _ _ | .setFailsafe _ _ | .sendOnce _ _ => true
  | _ => false

end Sys2Proof

namespace Sys2Proof.Machine

open Sys2Proof

/-! ## Resets -/

/-- Every block holds its reset values, READY waits with a cause, and the link runs at a rate (R7, R115 to R134, R150, R164, R165). -/
structure AfterReset (t : State) (cause : ResetCause) (rate : HostRate) : Prop where
  sleepSlots : ∀ l, t.slot ⟨l, 0⟩ =
    .published { length := 1, data := some [0x5A], seq := 0, lastOutcome := none, failsafe := none, failsafeActive := false }
  slots : ∀ r, r.slot ≠ 0 → t.slot r = .undefined
  conditions : ∀ l, (t.lane l).condition = .halted ∧ (t.lane l).resume = .halted ∧ (t.lane l).recoveryArmed = false
  config : ∀ l, (t.lane l).config =
    { bitRate := .bps9600, sampleFilter := true, responseTimeout := 10, gapLimit := 3, turnaroundGap := 4, probeInterval := 8,
      autoRecover := true, wakePulse := 16, wakeSettle := 64 }
  line : ∀ l, (t.lane l).line =
    { driving := false, dominantRun := 0, recessiveRun := 0, drainOwed := false, position := none, sent := 0, waited := 0
      cell := none }
  transactions : ∀ l, (t.lane l).transaction = none ∧ (t.lane l).oneShots = []
  accounts : ∀ l, (t.lane l).counts = { good := 0, silent := 0, faulty := 0 } ∧ (t.lane l).readbackRun = 0
    ∧ (t.lane l).capture = none ∧ (t.lane l).faultsSince = 0
  round : ∀ l, (t.lane l).round = { counter := 0, position := 0, worked := false, pause := none, streak := 0 }
  schedules : ∀ l, (t.lane l).schedules = { builder := none, staged := none, active := [] }
  routes : ∀ i, t.route i = none
  handles : t.nextHandle = 1
  reports : t.reports = { inFlight := [], unsent := [], lostCount := 0, lostKinds := 0 }
  receiver : t.hli.receiver = .hunting ∧ t.hli.buffer = []
  handler : t.hli.handlerStopped = false ∧ t.hli.replies = [] ∧ t.hli.cache = []
  transmitter : t.hli.transmitting = none ∧ t.hli.ready = some cause ∧ t.hli.rate = rate
  linkCounts : t.hli.counts = { framing := 0, crc := 0, overrun := 0, duplicate := 0 }
  guard : t.hli.silenceLimit = 0 ∧ t.hli.silenceTimer = .stopped ∧ t.hli.hostSilent = false
  credit : t.hli.credit = 0 ∧ t.hli.nextReportSeq = 1

/-! ## Requests -/

/-- The handler takes a frame now, and the frame is no duplicate: the handler is not stopped, the reply queue has a place, the frame is
the oldest in the receive buffer and the reply cache holds no entry for it (R157). -/
structure Takes (s : State) (f : Frame) : Prop where
  running : s.hli.handlerStopped = false
  place : s.hli.replies.length < 4
  oldest : s.hli.buffer.head? = some f
  fresh : s.hli.cached f = none

/-- The Host Link Interface after a frame has been taken and answered: the frame has left the receive buffer, the reply is the newest,
and a request with a tag other than 0 has its cache entry (steps 5 and 6 of R157). -/
def Hli.answered (h : Hli) (f : Frame) (status : Status) (fields : List Byte) : Hli :=
  let r : Reply := { tag := f.tag, code := f.kind, status, fields }
  { h with
    buffer := h.buffer.tail, replies := h.replies ++ [r]
    cache := if f.tag = 0 then h.cache else insertCache h.cache { bodyCrc := crc16 f.body, reply := r } }

/-- A command answers its frame with a status and reply fields, and its effect on everything else is `u`. -/
def Answers (c : Instr) (f : Frame) (s : State) (status : Status) (fields : List Byte) (u : State) : Prop :=
  exec c s = .next { u with hli := u.hli.answered f status fields }

/-- A command refuses its frame: the answer is the status alone, and nothing but the receive buffer, the reply queue and the reply cache
changes (R157). -/
def Refuses (c : Instr) (f : Frame) (s : State) (status : Status) : Prop := Answers c f s status [] s

/-- A slot is the destination of a route held in some place (R105). -/
def RouteFed (s : State) (r : SlotRef) : Prop := ∃ i t, s.route i = some t ∧ t.dst = r

/-- The entries of the three schedules of a lane (R71). -/
def Lane.entries (L : Lane) : List Entry :=
  L.schedules.builder.getD [] ++ L.schedules.staged.getD [] ++ L.schedules.active

/-- A slot is named by a schedule entry, by a route, or by a one-shot queued or running, so that it can't be redefined (R5). -/
def Referenced (s : State) (r : SlotRef) : Prop :=
  (∃ e ∈ (s.lane r.lane).entries, e.slot = r.slot)
    ∨ (∃ i t, s.route i = some t ∧ (t.src = r ∨ t.dst = r))
    ∨ (∃ o ∈ (s.lane r.lane).oneShots, o.slot = r.slot)
    ∨ (∃ t, (s.lane r.lane).transaction = some t ∧ t.source = .oneShot ∧ t.slot = r.slot)

/-! ## What a lane event leaves alone -/

/-- Of everything but the slot records, a lane event changes its own lane engine and the report queue behind the records in flight;
the lane keeps its configuration and its builder. -/
structure OnlyLane (l : LaneId) (s t : State) : Prop where
  lanes : ∀ m, m ≠ l → t.lane m = s.lane m
  config : (t.lane l).config = (s.lane l).config
  builder : (t.lane l).schedules.builder = (s.lane l).schedules.builder
  inFlight : t.reports.inFlight = s.reports.inFlight
  routes : t.routes = s.routes
  nextHandle : t.nextHandle = s.nextHandle
  hli : t.hli = s.hli
  pending : t.pending = s.pending

/-- A record is as it was, but that the choice of a next transaction may have skipped entries of an ABSENT polled slot of the lane, each of
which counts its skip count on (R14). -/
def SkippedOnly (l : LaneId) (r : SlotRef) (old new : SlotRecord) : Prop :=
  new = old ∨ (r.lane = l ∧ ∃ p n, old = .polled p ∧ p.presence = .absent ∧ p.skipCount ≤ n
    ∧ new = .polled { p with skipCount := n })

/-- A report that a lane engine hands over at a change of condition, for a one-shot completed by it, or at a swap (R131, R85). -/
def Report.ofEngine (l : LaneId) : Report → Bool
  | .laneChange m _ _ _ => m == l
  | .oneShotDone m _ _ _ _ => m == l
  | .scheduleSwapped m _ => m == l
  | .slotUpdate _ _ | .slotPresence _ _ | .faultCaptured _ _ | .hostSilence _ | .reportsLost _ _ => false

/-- The schedules of a lane after a swap: a staged schedule present becomes the active one (R85). -/
def Lane.swapped (L : Lane) : Schedules :=
  match L.schedules.staged with
  | none => L.schedules
  | some es => { L.schedules with active := es, staged := none }

/-- The report of a swap: none where no staged schedule is present (R85). -/
def Lane.swapReports (L : Lane) (l : LaneId) : List Report :=
  match L.schedules.staged with
  | none => []
  | some _ => [.scheduleSwapped l L.round.counter]

/-- The round state on entry to RUNNING, and on leaving RUNNING or HALTING (R83). -/
def RoundState.abandoned (r : RoundState) : RoundState :=
  { counter := r.counter, position := 0, worked := false, pause := none, streak := 0 }

/-- The completions of the one-shots queued on a lane, oldest first (R102, R103). -/
def Lane.completions (L : Lane) (l : LaneId) (outcome : Completion) : List Report :=
  L.oneShots.map fun o => .oneShotDone l o.handle outcome none none

/-- The reports `rs` have been handed over, in this order. -/
def Reported (s t : State) (rs : List Report) : Prop := t.reports = rs.foldl ReportQueue.handOver s.reports

/-- The reports `rs` have been handed over, in this order, and behind them at most reports of the lane engine (R53, R131). -/
def ReportedFirst (l : LaneId) (s t : State) (rs : List Report) : Prop :=
  ∃ more, (∀ r ∈ more, r.ofEngine l = true) ∧ Reported s t (rs ++ more)

/-! ## How a transaction ends (R51) -/

/-- A command ends the transaction in progress on a lane with an outcome, at a cell and a bit (R42). `t` is the transaction record as
its ending finds it. -/
inductive Ends (s : State) (l : LaneId) : Instr → Transaction → TxOutcome → Nat → Nat → Prop where
  /-- R32. -/
  | noResponse (t : Transaction) : (s.lane l).transaction = some t → t.phase = .await →
      Ends s l (.responseTimeout l) t .noResponse 0 0
  /-- A dominant stop bit, whatever the cell (R33). -/
  | framing (t : Transaction) (c : Instr) (cell : Samples 9) : (s.lane l).transaction = some t → t.phase = .receive →
      (c = .tagCellReceived l cell ∧ t.awaitsTag ∨ c = .headerCellReceived l cell ∧ t.awaitsHeader
        ∨ c = .dataCellReceived l cell ∧ t.awaitsData ∨ c = .checkCellReceived l cell ∧ t.awaitsCheck) →
      (s.lane l).line.fits (cell.levels (s.lane l).config.sampleFilter) →
      (cell.levels (s.lane l).config.sampleFilter).getLsbD 8 = false →
      Ends s l c t .framingError t.cellIndex 9
  /-- A tag cell whose check does not match or whose tag is 0 (R35). -/
  | tagError (t : Transaction) (cell : Samples 9) (v : Byte) : (s.lane l).transaction = some t → t.phase = .receive →
      t.awaitsTag → cell.levels (s.lane l).config.sampleFilter = 1#1 ++ v → (s.lane l).line.fits (1#1 ++ v) →
      (v.toNat % 32 = 0 ∨ v.toNat / 32 ≠ (v.toNat % 32 * 5 + 3) % 8) →
      Ends s l (.tagCellReceived l cell) t .tagError t.cellIndex 9
  /-- A header check that is not the complement of the length's lowest three bits, or a length of 13 to 15 (R36). -/
  | headerError (t : Transaction) (cell : Samples 9) (v : Byte) : (s.lane l).transaction = some t → t.phase = .receive →
      t.awaitsHeader → cell.levels (s.lane l).config.sampleFilter = 1#1 ++ v → (s.lane l).line.fits (1#1 ++ v) →
      (v.toNat / 32 ≠ 7 - v.toNat % 8 ∨ 13 ≤ v.toNat % 16) →
      Ends s l (.headerCellReceived l cell) t .headerError t.cellIndex 9
  /-- A length that the slot's rule does not admit (R36). -/
  | lengthMismatch (t : Transaction) (cell : Samples 9) (rule : LengthRule) (length : Nat) (attention : Bool) :
      (s.lane l).transaction = some t → t.phase = .receive → t.awaitsHeader → length ≤ 12 →
      cell.levels (s.lane l).config.sampleFilter = 1#1 ++ headerCell length attention →
      (s.lane l).line.fits (1#1 ++ headerCell length attention) →
      (s.slot ⟨l, t.slot⟩).lengthRule = some rule → rule.admits length = false →
      Ends s l (.headerCellReceived l cell) t .lengthMismatch t.cellIndex 9
  /-- A check cell on a polled slot (R37, R49). -/
  | check (t : Transaction) (cell : Samples 9) (v : Byte) : (s.lane l).transaction = some t → t.phase = .receive →
      t.awaitsCheck → t.kind ≠ .contended → cell.levels (s.lane l).config.sampleFilter = 1#1 ++ v →
      (s.lane l).line.fits (1#1 ++ v) →
      Ends s l (.checkCellReceived l cell) t (if v = t.responseCrc then .done else .checkError) t.cellIndex 9
  /-- R34. -/
  | gapTimeout (t : Transaction) : (s.lane l).transaction = some t → t.phase = .receive →
      (t.tag.isSome ∨ t.header.isSome) → (s.lane l).line.cell = none →
      Ends s l (.gapTimeout l) t .gapTimeout t.cellIndex 0
  /-- The end of a pending window, dominant or recessive (R39, R50). -/
  | window (t : Transaction) (bit : Samples 1) : (s.lane l).transaction = some t → t.phase = .window →
      Ends s l (.pendingWindowEnd l bit)
        { t with
          pendingResult := if bit.levels (s.lane l).config.sampleFilter = 0#1 then .seen else .notSeen }
        (if t.checkMatched then .done else .checkError) t.cellIndex 9
  /-- R51. -/
  | published (t : Transaction) : (s.lane l).transaction = some t → t.phase = .send →
      Ends s l (.publishComplete l) t .done 0 0
  /-- A mismatch in a bit of the call marker, which is placed at cell 0, bit 0, or of the call cell (R30, R31, R41, R42). -/
  | readbackCall (t : Transaction) (ahead : Nat) (read : Samples 1) (recessive : Bool) :
      (s.lane l).transaction = some t → t.phase = .call →
      (List.replicate 12 false ++ [true] ++ cellLevels (numberCell t.slot.val))[(s.lane l).line.sent + ahead]?
        = some recessive →
      (read.levels (s.lane l).config.sampleFilter = 0#1 ↔ recessive = true) →
      Ends s l (.readbackError l ahead read) t .readbackError 0 ((s.lane l).line.sent + ahead - 13)
  /-- A mismatch in a bit of the header, data and check cells of a publish (R40 to R42). -/
  | readbackSend (t : Transaction) (ahead : Nat) (read : Samples 1) (recessive : Bool) :
      (s.lane l).transaction = some t → t.phase = .send → t.kind = .published →
      ((publishCells t.slot (t.sendData.getD [])).flatMap cellLevels)[(s.lane l).line.sent + ahead]? = some recessive →
      (read.levels (s.lane l).config.sampleFilter = 0#1 ↔ recessive = true) →
      Ends s l (.readbackError l ahead read) t .readbackError (1 + ((s.lane l).line.sent + ahead) / 10)
        (((s.lane l).line.sent + ahead) % 10)
  /-- A stuck fault in GAP (R48). -/
  | stuck (t : Transaction) : (s.lane l).transaction = some t → t.phase = .gap →
      Ends s l (.stuckFault l) t .lineStuck 0 0

/-- What the Slot Table reports at an ending, and in which order (R9 to R13); `backlog` is the flag as the ending settles it. -/
def slotReports (ref : SlotRef) (old : SlotRecord) (t : Transaction) (o : TxOutcome) (backlog : Bool) : List Report :=
  let attention := (t.header.map Header.attention).getD false
  match old, o with
  | .polled r, .done =>
    (if r.presence = .absent then [.slotPresence ref .present] else [])
      ++ (if r.mode = .every ∨ attention = true ∨ (r.mode = .onChange ∧ r.data ≠ some t.data) then
            [.slotUpdate ref
              { seq := r.seq + 1, tag := none, attention, backlog := false, merged := 0, data := t.data }]
          else [])
  | .contended r, .done =>
    if r.mode = .every ∨ attention = true ∨ (r.mode = .onChange ∧ (r.data ≠ some t.data ∨ r.lastTag ≠ t.tag)) then
      [.slotUpdate ref { seq := r.seq + 1, tag := t.tag, attention, backlog, merged := 0, data := t.data }]
    else []
  | .polled r, .noResponse =>
    if r.presence = .present ∧ r.absenceLimit ≤ min (r.missCount + 1) 15 then [.slotPresence ref .absent] else []
  | _, _ => []

/-- The report of a faulty ending that finds the capture armed (R56). -/
def captureReports (L : Lane) (l : LaneId) (o : TxOutcome) (slot : SlotId) (cell bit : Nat) : List Report :=
  if o.faulty = true ∧ L.capture = none then
    [.faultCaptured l { outcome := o, slot, cell, bit, round := L.round.counter }]
  else []

/-- The report of a one-shot that ends with its transaction (R99). -/
def oneShotReports (l : LaneId) (t : Transaction) (o : TxOutcome) : List Report :=
  match t.oneShot with
  | none => []
  | some (handle, kind) =>
    if kind = .poll ∧ o = .done then [.oneShotDone l handle (.ended o) t.tag (some t.data)]
    else [.oneShotDone l handle (.ended o) none none]

/-- The backlog flag of a contended slot after an ending: the table of R16 (after a follow-up without a response: log entry 28). -/
def backlogAfter (old : Bool) (o : TxOutcome) (p : PendingResult) (followUp : Bool) : Bool :=
  if o = .noResponse then false
  else if o = .done ∨ o = .checkError then
    if p = .notSeen then false else if p = .seen ∧ followUp = false then true else old
  else old

/-- Whether an ending decides a follow-up (R59). -/
def FollowsUp (t : Transaction) (o : TxOutcome) : Prop :=
  (t.source = .scheduled ∨ t.source = .followUp) ∧ t.kind = .contended ∧ (o = .done ∨ o = .checkError)
    ∧ t.pendingResult = .seen ∧ (∃ n, t.allowance = some n ∧ 1 ≤ n) ∧ t.followUpsForbidden = false

/-- The reports of stages 3 to 7 of an ending, in order (R53). -/
def endingReports (s : State) (l : LaneId) (t : Transaction) (o : TxOutcome) (cell bit : Nat) (followUp : Bool) :
    List Report :=
  let backlog := match s.slot ⟨l, t.slot⟩ with
    | .contended r => backlogAfter r.backlog o t.pendingResult followUp
    | .undefined | .polled _ | .published _ => false
  slotReports ⟨l, t.slot⟩ (s.slot ⟨l, t.slot⟩) t o backlog ++ captureReports (s.lane l) l o t.slot cell bit
    ++ oneShotReports l t o

/-- The slots of the SLOT_UPDATE records in a list. -/
def updateRefs (records : List Report) : List SlotRef :=
  records.filterMap fun r => match r with
    | .slotUpdate ref _ => some ref
    | _ => none

/-- Every SLOT_UPDATE of a list after the re-merge of R147: the record in place `i` is left out where an earlier one is of its slot, and
the first of a slot carries the newest contents and the merged counts of all of them, plus one for each merged into it. -/
def remerged (records : List Report) : List Report :=
  (List.range records.length).filterMap fun i =>
    match (records[i]? : Option Report) with
    | none => none
    | some (.slotUpdate ref u) =>
      if ref ∈ updateRefs (records.take i) then none
      else
        let later := (records.drop (i + 1)).filterMap fun (r : Report) => match r with
          | .slotUpdate ref' u' => if ref' = ref then some u' else none
          | _ => none
        match later.getLast? with
        | none => some (.slotUpdate ref u)
        | some newest =>
          some (.slotUpdate ref
            { newest with merged := min (u.merged + (later.map fun x => x.merged + 1).sum) 255 })
    | some r => some r

/-! ## Invariants -/

/-- The sequence numbers of the records in flight run consecutively up to the next one, which is in range (R136, R143). -/
def Consecutive : List SentReport → Nat → Prop
  | [], next => 1 ≤ next ∧ next ≤ 65535
  | [r], next => 1 ≤ r.seq ∧ r.seq ≤ 65535 ∧ next = nextNumber r.seq
  | r :: r' :: rest, next => 1 ≤ r.seq ∧ r.seq ≤ 65535 ∧ r'.seq = nextNumber r.seq ∧ Consecutive (r' :: rest) next

/-- The bounds of the Report Queue and the credit, the numbering of what is in flight, one pending SLOT_UPDATE a slot, and the bound of the
merged counts (R136, R138). -/
structure QueueWf (q : ReportQueue) (credit next : Nat) : Prop where
  places : q.inFlight.length + q.unsent.length ≤ 48
  credit : credit + q.inFlight.length ≤ 16
  lost : q.lostCount ≤ 65535
  kinds : q.lostCount = 0 → q.lostKinds = 0
  consecutive : Consecutive q.inFlight next
  updates : (updateRefs q.unsent).Nodup
  merged : ∀ ref u, .slotUpdate ref u ∈ q.inFlight.map SentReport.report ++ q.unsent → u.merged ≤ 255

/-- The bounds of the Host Link Interface (R156, R159, R160, R167, R168). -/
structure LinkWf (h : Hli) : Prop where
  buffer : h.buffer.length ≤ 2
  replies : h.replies.length ≤ 4
  cache : h.cache.length ≤ 8
  tags : (h.cache.map fun e => e.reply.tag).Nodup
  tagged : ∀ e ∈ h.cache, e.reply.tag ≠ 0
  counts : h.counts.framing ≤ 65535 ∧ h.counts.crc ≤ 65535 ∧ h.counts.overrun ≤ 65535 ∧ h.counts.duplicate ≤ 65535
  timer : h.silenceTimer ≠ .stopped ↔ (h.silenceLimit ≠ 0 ∧ h.hostSilent = false)

/-- The ranges of the lane configuration record (R132). -/
structure ConfigWf (c : LaneConfig) : Prop where
  responseTimeout : 2 ≤ c.responseTimeout ∧ c.responseTimeout ≤ 40
  gapLimit : 1 ≤ c.gapLimit ∧ c.gapLimit ≤ 12
  turnaroundGap : 2 ≤ c.turnaroundGap ∧ c.turnaroundGap ≤ 16
  probeInterval : 1 ≤ c.probeInterval ∧ c.probeInterval ≤ 32
  wakePulse : 4 ≤ c.wakePulse ∧ c.wakePulse ≤ 24
  wakeSettle : 16 ≤ c.wakeSettle ∧ c.wakeSettle ≤ 255

/-- What a transaction record holds by its source, kind and phase (R46, R47, R49 to R51). -/
structure TransactionWf (t : Transaction) : Prop where
  oneShot : t.source = .oneShot ↔ t.oneShot.isSome
  followUp : t.source = .followUp → t.kind = .contended
  sleepCall : t.source = .sleepCall → t.kind = .published
  allowance : t.allowance.isSome ↔ t.kind = .contended ∧ (t.source = .scheduled ∨ t.source = .followUp)
  answered : t.phase = .await ∨ t.phase = .receive → t.kind ≠ .published
  sends : t.phase = .send → t.kind = .published
  window : t.phase = .window → t.kind = .contended ∧ t.header.isSome
  notSampled : t.pendingResult = .notSampled
  tag : t.tag.isSome → t.kind = .contended
  header : ∀ h, t.header = some h → h.length ≤ 12 ∧ t.data.length ≤ h.length ∧ (t.phase = .window → t.data.length = h.length)
  noHeader : t.header = none → t.data = []

/-- What a lane engine holds in each condition, and the bounds of its counts (R26, R46, R54 to R56, R78, R92, R101, R115). -/
structure LaneWf (L : Lane) : Prop where
  idle : L.condition = .halted ∨ L.condition = .sleeping ∨ L.condition = .waking ∨ L.condition = .faulted → L.transaction = none
  halting : L.condition = .halting → L.transaction.isSome
  queueEmpty : L.condition = .sleeping ∨ L.condition = .faulted → L.oneShots = []
  queue : L.oneShots.length ≤ 8
  transaction : ∀ t, L.transaction = some t → TransactionWf t
  sleepCall : ∀ t, L.transaction = some t → t.source = .sleepCall → L.condition = .sleepPending
  forbidden : L.condition = .halting ∨ L.condition = .sleepPending →
    ∀ t, L.transaction = some t → t.source = .sleepCall ∨ t.followUpsForbidden = true
  sending : ∀ t, L.transaction = some t → (L.line.driving = true ↔ t.levelsSent[L.line.sent]? = some false)
  sent : ∀ t, L.transaction = some t → t.phase = .call ∨ t.phase = .send →
    L.line.sent < t.levelsSent.length ∧ L.line.position = some (t.placeSent L.line.sent)
  receiving : ∀ bits, L.line.cell = some bits → bits.length ≤ 8
    ∧ ∃ t, L.transaction = some t ∧ t.phase = .receive ∧ L.line.position = some (t.cellIndex, bits.length)
  firstCell : ∀ t, L.transaction = some t → t.phase = .receive → t.tag = none → t.header = none → L.line.cell.isSome
  pulse : L.transaction = none → L.line.driving = true → L.condition = .waking
  position : L.line.position.isSome = L.transaction.isSome
  armed : L.recoveryArmed = true → L.condition = .faulted
  config : ConfigWf L.config
  dominantRun : L.line.dominantRun ≤ 30
  recessiveRun : L.line.recessiveRun ≤ 255
  waited : L.line.waited ≤ 255
  counts : L.counts.good ≤ 65535 ∧ L.counts.silent ≤ 65535 ∧ L.counts.faulty ≤ 65535
  readbackRun : L.readbackRun ≤ 2
  capture : ∀ c, L.capture = some c → c.outcome.faulty = true
  faultsSince : L.faultsSince ≤ 255 ∧ (L.capture = none → L.faultsSince = 0)
  pause : ∀ n, L.round.pause = some n → n ≤ 16 ∧ L.condition = .running ∧ L.transaction = none ∧ L.schedules.active ≠ []
  roundPosition : L.round.position ≤ L.schedules.active.length
  streak : L.round.streak ≤ 2

/-- The bounds of the entry pool (R70). -/
structure PoolWf (s : State) : Prop where
  total : (s.lanes.toList.map fun L => L.schedules.held).sum ≤ 96
  builder : ∀ l es, (s.lane l).schedules.builder = some es → es.length ≤ 48
  staged : ∀ l es, (s.lane l).schedules.staged = some es → es.length ≤ 48
  active : ∀ l, (s.lane l).schedules.active.length ≤ 48

/-- No two queued or running one-shots share a handle, and every handle is 1 to 65535 (R93). -/
structure HandlesWf (s : State) : Prop where
  next : 1 ≤ s.nextHandle ∧ s.nextHandle ≤ 65535
  range : ∀ h ∈ s.handles, 1 ≤ h ∧ h ≤ 65535
  distinct : s.handles.Nodup

/-- What a slot record holds (R1, R3, R5, R12, R14, R22). -/
def RecordWf : SlotRecord → Prop
  | .undefined => True
  | .polled r =>
    r.rule.bound ≤ 12 ∧ 1 ≤ r.absenceLimit ∧ r.absenceLimit ≤ 15 ∧ r.missCount ≤ 15 ∧ r.skipCount ≤ 31
      ∧ (∀ d, r.data = some d → r.rule.admits d.length = true)
      ∧ (r.presence = .absent ↔ r.absenceLimit ≤ r.missCount) ∧ (r.presence = .present → r.skipCount = 0)
  | .contended r => r.rule.bound ≤ 12 ∧ r.budget ≤ 7 ∧ ∀ d, r.data = some d → r.rule.admits d.length = true
  | .published r =>
    r.length ≤ 12 ∧ (∀ d, r.data = some d → d.length = r.length) ∧ (∀ d, r.failsafe = some d → d.length = r.length)
      ∧ (r.failsafeActive = true → r.failsafe.isSome)

/-- What every schedule entry held names: a slot of 1 to 31 defined on its lane, and a phase below its divider (R72). -/
def EntriesWf (s : State) : Prop :=
  ∀ l, ∀ e ∈ (s.lane l).entries, e.slot ≠ 0 ∧ s.slot ⟨l, e.slot⟩ ≠ .undefined ∧ e.phase < 2 ^ e.exponent.val

/-- What every route held satisfies (R106), and the failsafe-active flag of its destination (R22). -/
structure RoutesWf (s : State) : Prop where
  user : ∀ i t, s.route i = some t → t.src.slot ≠ 0 ∧ t.dst.slot ≠ 0
  ends : ∀ i t, s.route i = some t →
    ∃ p, s.slot t.dst = .published p ∧ p.failsafeActive = false ∧ (s.slot t.src).lengthRule = some (.exact p.length)
  single : ∀ i j t u, s.route i = some t → s.route j = some u → t.dst = u.dst → i = j

/-- What every queued one-shot names: a slot of 1 to 31 defined on its lane, of the one-shot's kind (R92). -/
def OneShotsWf (s : State) : Prop :=
  ∀ l, ∀ o ∈ (s.lane l).oneShots, o.slot ≠ 0 ∧
    match s.slot ⟨l, o.slot⟩ with
    | .undefined => False
    | .polled _ | .contended _ => o.kind = .poll ∧ o.data = none
    | .published p => o.kind = .publish ∧ ∃ d, o.data = some d ∧ d.length = p.length

/-- A transaction in progress agrees with the record of its slot, and a scheduled one and its follow-ups with the active schedule
(R5, R46, R47). -/
structure CallsWf (s : State) : Prop where
  kind : ∀ l t, (s.lane l).transaction = some t → (s.slot ⟨l, t.slot⟩).callKind = some t.kind
  sleep : ∀ l t, (s.lane l).transaction = some t → (t.source = .sleepCall ↔ t.slot = 0)
  entry : ∀ l t, (s.lane l).transaction = some t → t.source = .scheduled ∨ t.source = .followUp →
    ∃ e ∈ (s.lane l).schedules.active, e.slot = t.slot
  header : ∀ l t h, (s.lane l).transaction = some t → t.header = some h →
    ∃ rule, (s.slot ⟨l, t.slot⟩).lengthRule = some rule ∧ rule.admits h.length = true

/-- The Slot Table, with everything that refers to it: schedules, routes, one-shots and transactions. -/
structure TablesWf (s : State) : Prop where
  sleep : ∀ l, ∃ o, s.slot ⟨l, 0⟩ = sleepSlot o
  records : ∀ r, RecordWf (s.slot r)
  entries : EntriesWf s
  routes : RoutesWf s
  oneShots : OneShotsWf s
  calls : CallsWf s

/-- Every lane engine holds what its condition allows. -/
def LanesWf (s : State) : Prop := ∀ l, LaneWf (s.lane l)

end Sys2Proof.Machine
end

