-- ==== Sys2Proof/Certificates/Slice0/Obligations.lean ====
section
/-!
DEFINITION. The statements about the part. Each is about every state and every operand that meets its hypotheses; a statement of a
result says that `exec` answers a next state, and what that state holds.
-/

open Sys2Proof Sys2Proof.Machine

/-! ## The part -/

/-- A step takes the command at the front of the queue and runs it on the state with the queue's rest. The queue is the model's (log entry
7). -/
def Obligations.StepRunsFrontCommand : Prop :=
  ∀ (s : State) (c : Instr) (rest : List Instr), s.pending = c :: rest → step s = exec c { s with pending := rest }

/-- Power-on reset and pin reset bring every block to its reset values from any state (R7, R115, R134, R150, R164): the rate is the one the
pins select, and a READY of a power-on reset that still waits keeps its cause, which with a SOFT_RESET pending is the model's choice between
R164 and R165 (log entry 29). The commands that wait are kept (log entry 7), and the model's own fields of the line state, the bit being
sent, the length of a wait and the bits of a cell, are 0, 0 and none (log entry 30): both are the model's choice. -/
def Obligations.ResetsReachEveryBlock : Prop :=
  ∀ (s : State) (pins : BitVec 2),
    let rate : HostRate :=
      if pins = 0#2 then .baud115200 else if pins = 1#2 then .baud230400 else if pins = 2#2 then .baud460800 else .baud921600
    (∃ t, exec (.powerOnReset pins) s = .next t ∧ AfterReset t .power rate ∧ t.pending = s.pending)
      ∧ ∃ t, exec (.pinReset pins) s = .next t
          ∧ AfterReset t (if s.hli.ready = some .power then .power else .pin) rate ∧ t.pending = s.pending

/-! ## Reception and the silence guard -/

/-- A hunting receiver takes the byte 0xC3 as a start byte and passes over every other byte and every bad byte; a frame in reception is
discarded at each fault of R154, counted once, and the receiver then hunts; a length byte of 0xC3 is itself a new start byte (R153, R154).
A byte is given as the levels of its data bits and of its stop bit, which reads low in a bad byte (log entry 19). -/
def Obligations.FaultyFramesAreDiscardedAndCounted : Prop :=
  ∀ s : State,
    (s.hli.receiver = .hunting → ∀ levels : LinkLevels,
      (levels = 1#1 ++ 0xC3#8 →
        exec (.frameStartByte levels) s = .next { s with hli := { s.hli with receiver := .insideFrame } })
      ∧ (levels ≠ 1#1 ++ 0xC3#8 → exec (.frameStartByte levels) s = .next s))
    ∧ (s.hli.receiver = .insideFrame →
        let framing : LinkCounts := { s.hli.counts with framing := min (s.hli.counts.framing + 1) 65535 }
        (∀ b : Byte, b.toNat < 2 ∨ 66 < b.toNat →
          exec (.frameDiscard ⟨true, 1#1 ++ b⟩) s = .next { s with
            hli := { s.hli with counts := framing, receiver := if b = 0xC3 then .insideFrame else .hunting } })
        ∧ (∀ (isLength : Bool) (b : Byte), exec (.frameDiscard ⟨isLength, 0#1 ++ b⟩) s = .next { s with
            hli := { s.hli with counts := framing, receiver := .hunting } })
        ∧ exec .frameGapTimeout s = .next { s with hli := { s.hli with counts := framing, receiver := .hunting } }
        ∧ ∀ (content : List Byte) (high low : Byte), 2 ≤ content.length → content.length ≤ 66 →
            [high, low] ≠ crcBytes (crc16 (byte content.length :: content)) →
            exec (.crcMismatch ((byte content.length :: content ++ [high, low]).map fun b => 1#1 ++ b)) s = .next { s with
              hli := { s.hli with
                counts := { s.hli.counts with crc := min (s.hli.counts.crc + 1) 65535 }, receiver := .hunting } })

/-- A good frame ends HOST_SILENT with its report, restarts the silence timer, and joins the receive buffer or is discarded as an overrun,
in one event (R155, R170). The frame is given as the levels of its bytes after the start byte, each with a high stop bit (log entry 19). -/
def Obligations.GoodFrameJoinsTheBufferOrOverruns : Prop :=
  ∀ (s : State) (f : Frame), f.body.length ≤ 64 → s.hli.receiver = .insideFrame →
    exec (.goodFrame (f.tail.map fun b => 1#1 ++ b)) s = .next { s with
      reports := if s.hli.hostSilent then s.reports.handOver (.hostSilence false) else s.reports
      hli := { s.hli with
        receiver := .hunting
        hostSilent := false
        silenceTimer := if s.hli.silenceLimit = 0 then .stopped else .running 0
        buffer := if s.hli.buffer.length < 2 then s.hli.buffer ++ [f] else s.hli.buffer
        counts := if s.hli.buffer.length < 2 then s.hli.counts
          else { s.hli.counts with overrun := min (s.hli.counts.overrun + 1) 65535 } } }

/-- Entry into HOST_SILENT: the timer stops, every published slot that holds failsafe data and is not route-fed takes it with its sequence
advanced and its flag set, every other record stays, and HOST_SILENCE begin is handed over (R21, R169, R114). -/
def Obligations.HostSilenceAppliesTheFailsafe : Prop :=
  ∀ (s : State) (n : Nat), s.hli.silenceTimer = .running n →
    ∃ t, exec .hostSilenceBegin s = .next t
      ∧ t = { s with
          slots := t.slots
          reports := s.reports.handOver (.hostSilence true)
          hli := { s.hli with hostSilent := true, silenceTimer := .stopped } }
      ∧ (∀ r p d, s.slot r = .published p → p.failsafe = some d → ¬ RouteFed s r →
          t.slot r = .published { p with data := some d, seq := p.seq + 1, failsafeActive := true })
      ∧ (∀ r, (∀ p d, s.slot r = .published p → p.failsafe = some d → RouteFed s r) → t.slot r = s.slot r)

/-! ## The transmitter -/

/-- With nothing in transmission, READY is sent ahead of everything, then the oldest reply, whose place is freed (R159, R162, R164). That a
frame the arbiter does not choose is refused is the model's choice (log entry 4). -/
def Obligations.ReadyAndRepliesAreSentFirst : Prop :=
  ∀ s : State, s.hli.transmitting = none →
    (∀ cause, s.hli.ready = some cause →
      exec .sendReady s = .next { s with hli := { s.hli with transmitting := some (.ready cause) } }
        ∧ exec .sendReply s = .refused .notChosenByArbiter ∧ exec .sendReport s = .refused .notChosenByArbiter)
    ∧ (∀ r rest, s.hli.ready = none → s.hli.replies = r :: rest →
        exec .sendReply s = .next { s with hli := { s.hli with replies := rest, transmitting := some (.reply r) } }
          ∧ exec .sendReport s = .refused .notChosenByArbiter)

/-- With no notice or reply waiting and credit above 0, the oldest pending record takes the next report sequence number, becomes in flight
and is sent, and the credit falls by one; without credit nothing is sent (R142, R143). That sending without credit is refused by name is the
model's choice (log entry 4). -/
def Obligations.ReportsAreNumberedAsTheyAreSent : Prop :=
  ∀ (s : State) (r : Report) (rest : List Report), s.hli.transmitting = none → s.hli.ready = none → s.hli.replies = [] →
    s.reports.unsent = r :: rest →
    (0 < s.hli.credit →
      exec .sendReport s = .next { s with
        reports := { s.reports with
          inFlight := s.reports.inFlight ++ [{ seq := s.hli.nextReportSeq, report := r }], unsent := rest }
        hli := { s.hli with
          credit := s.hli.credit - 1
          nextReportSeq := if s.hli.nextReportSeq < 65535 then s.hli.nextReportSeq + 1 else 1
          transmitting := some (.report { seq := s.hli.nextReportSeq, report := r }) } })
    ∧ (s.hli.credit = 0 → exec .sendReport s = .refused .notChosenByArbiter)

/-- The end of a frame on HTX frees the transmitter, and READY stops waiting if it was the frame sent. SOFT_RESET stops the handler and
changes nothing else; the end of its reply OK resets every block, with READY waiting with cause SOFT at the rate in use (R162, R164, R165,
R173). The commands that wait are kept (log entry 7), and the model's own fields of the line state, the bit being sent, the length of a
wait and the bits of a cell, are 0, 0 and none (log entry 30): both are the model's choice. -/
def Obligations.SoftResetTakesEffectAtItsReply : Prop :=
  (∀ (s : State) (tag : Byte), Takes s ⟨0x02, tag, []⟩ →
    Answers (.softReset tag []) ⟨0x02, tag, []⟩ s .ok [] { s with hli := { s.hli with handlerStopped := true } })
  ∧ ∀ (s : State) (f : OutFrame), s.hli.transmitting = some f →
      (∀ cause, f = .ready cause →
        exec .frameEnd s = .next { s with hli := { s.hli with transmitting := none, ready := none } })
      ∧ (∀ r, f = .report r → exec .frameEnd s = .next { s with hli := { s.hli with transmitting := none } })
      ∧ (∀ r, f = .reply r → (s.hli.handlerStopped = false ∨ r.code ≠ 0x02 ∨ r.status ≠ .ok) →
          exec .frameEnd s = .next { s with hli := { s.hli with transmitting := none } })
      ∧ (∀ r, f = .reply r → s.hli.handlerStopped = true → r.code = 0x02 → r.status = .ok →
          ∃ t, exec .frameEnd s = .next t ∧ AfterReset t .soft s.hli.rate ∧ t.pending = s.pending)

/-! ## The request handler -/

/-- A request that matches an entry of the reply cache is answered with the cached reply and counted, and nothing else changes (R161). -/
def Obligations.DuplicatesAreAnsweredFromTheCache : Prop :=
  ∀ (s : State) (c : Instr) (f : Frame) (e : CacheEntry), c.frame = some f →
    (∀ kind tag body, c = .unknownRequest kind tag body → kind ∉ requestCodes) →
    s.hli.handlerStopped = false → s.hli.replies.length < 4 → s.hli.buffer.head? = some f →
    f.tag ≠ 0 → (s.hli.cache.map fun x => x.reply.tag).Nodup → e ∈ s.hli.cache →
    e.reply.tag = f.tag → e.reply.code = f.kind → e.bodyCrc = crc16 f.body →
    exec c s = .next { s with
      hli := { s.hli with
        buffer := s.hli.buffer.tail
        replies := s.hli.replies ++ [e.reply]
        counts := { s.hli.counts with duplicate := min (s.hli.counts.duplicate + 1) 65535 } } }

/-- Every request that the handler takes produces one reply with its tag and code, and a refused one changes nothing but the receive buffer,
the reply queue and the reply cache. A request with a tag other than 0 becomes the newest entry of the cache: an older entry with its tag is
gone, or else the oldest entry where 9 would be held, and the others stay in their order; a request with tag 0 makes no entry, and an
accepted LINK_RESET empties the cache (R157, R159, R160). -/
def Obligations.EveryRequestIsAnsweredOnce : Prop :=
  ∀ (s : State) (c : Instr) (f : Frame), c.frame = some f →
    (∀ kind tag body, c = .unknownRequest kind tag body → kind ∉ requestCodes) → Takes s f →
    ∃ t r, exec c s = .next t ∧ r.tag = f.tag ∧ r.code = f.kind ∧ t.hli.replies = s.hli.replies ++ [r]
      ∧ t.hli.buffer = s.hli.buffer.tail
      ∧ (f.kind = 0x03 → r.status = .ok → t.hli.cache = [])
      ∧ (f.kind ≠ 0x03 ∨ r.status ≠ .ok →
          (f.tag = 0 → t.hli.cache = s.hli.cache)
          ∧ (f.tag ≠ 0 → ∃ kept, t.hli.cache = kept ++ [{ bodyCrc := crc16 f.body, reply := r }]
              ∧ ((∃ e ∈ s.hli.cache, e.reply.tag = f.tag) → kept = s.hli.cache.filter fun e => e.reply.tag ≠ f.tag)
              ∧ ((∀ e ∈ s.hli.cache, e.reply.tag ≠ f.tag) →
                  kept = if s.hli.cache.length < 8 then s.hli.cache else s.hli.cache.tail)))
      ∧ (r.status ≠ .ok → r.fields = [] ∧ Refuses c f s r.status)

/-- The first checks: a kind that is not in the table of R171 is answered UNKNOWN_REQUEST whatever its body, a body length that the table does
not give for the code BAD_LENGTH, and then a lane of 4 to 255 BAD_LANE (R157, R171). The table is given as each code with the least and the
greatest length; SCHED_ADD (0x29) takes the odd ones alone. -/
def Obligations.KindLengthAndLaneAreCheckedFirst : Prop :=
  let table : List (Byte × Nat × Nat) :=
    [(0x01, 0, 0), (0x02, 0, 0), (0x03, 0, 0), (0x04, 1, 1), (0x05, 1, 1), (0x10, 10, 10), (0x11, 1, 1), (0x12, 1, 1),
      (0x13, 1, 1), (0x14, 1, 1), (0x15, 2, 2), (0x16, 1, 1), (0x20, 7, 7), (0x21, 2, 2), (0x22, 2, 14), (0x23, 2, 2),
      (0x24, 3, 15), (0x28, 1, 1), (0x29, 3, 49), (0x2A, 1, 1), (0x2B, 1, 1), (0x2C, 3, 3), (0x30, 2, 14), (0x31, 2, 2),
      (0x34, 6, 6), (0x35, 1, 1), (0x36, 0, 0), (0x38, 1, 1), (0x39, 2, 2)]
  let given : Byte → Nat → Prop := fun code n =>
    ∃ row ∈ table, row.1 = code ∧ row.2.1 ≤ n ∧ n ≤ row.2.2 ∧ (code = 0x29 → n % 2 = 1)
  (∀ (s : State) (kind tag : Byte) (body : List Byte), kind ∉ table.map Prod.fst → Takes s ⟨kind, tag, body⟩ →
    Refuses (.unknownRequest kind tag body) ⟨kind, tag, body⟩ s .unknownRequest)
  ∧ (∀ (s : State) (c : Instr) (f : Frame), c.frame = some f → (∀ kind tag body, c ≠ .unknownRequest kind tag body) →
      Takes s f → ¬ given f.kind f.body.length → Refuses c f s .badLength)
  ∧ (∀ (s : State) (c : Instr) (f : Frame) (lane : Byte) (rest : List Byte), c.frame = some f → c.checksLaneFirst = true →
      Takes s f → given f.kind f.body.length → f.body = lane :: rest → 4 ≤ lane.toNat → Refuses c f s .badLane)

/-- DEFINE_SLOT, CLEAR_SLOT, WRITE_SLOT, SET_FAILSAFE and SEND_ONCE of the sleep slot, or of a slot above 31, are refused with BAD_VALUE, and so
are a ROUTE_SET that names one at either end and a SCHED_ADD one of whose entries names it behind entries that pass (R2, R171). READ_SLOT
of the sleep slot is accepted, and stands in another statement. -/
def Obligations.TheSleepSlotIsRefused : Prop :=
  (∀ (s : State) (c : Instr) (f : Frame) (l : LaneId) (slot : Byte) (rest : List Byte), c.frame = some f →
    c.namesUserSlot = true → Takes s f → bodyLengthOk f.kind f.body.length = true → f.body = byte l.val :: slot :: rest →
    (slot = 0 ∨ 32 ≤ slot.toNat) → Refuses c f s .badValue)
  ∧ (∀ (s : State) (tag : Byte) (i : Fin 16) (a b : LaneId) (src dst mode : Byte),
      let body := [byte i.val, byte a.val, src, byte b.val, dst, mode]
      Takes s ⟨0x34, tag, body⟩ → (src = 0 ∨ 32 ≤ src.toNat ∨ dst = 0 ∨ 32 ≤ dst.toNat) →
      Refuses (.routeSet tag body) ⟨0x34, tag, body⟩ s .badValue)
  ∧ (∀ (s : State) (tag : Byte) (l : LaneId) (held : List Entry) (before : List Entry) (slot timing : Byte) (rest : List Byte),
      let body := byte l.val :: before.flatMap Entry.bytes ++ slot :: timing :: rest
      Takes s ⟨0x29, tag, body⟩ → bodyLengthOk 0x29 body.length = true → (s.lane l).schedules.builder = some held →
      (∀ e ∈ before, e.slot ≠ 0 ∧ s.slot ⟨l, e.slot⟩ ≠ .undefined ∧ e.phase < 2 ^ e.exponent.val) →
      (slot = 0 ∨ 32 ≤ slot.toNat) → Refuses (.schedAdd tag body) ⟨0x29, tag, body⟩ s .badValue)

/-! ## Link and part requests -/

/-- HELLO and READ_ROUTES change nothing; HELLO answers the sizes of the part, and READ_ROUTES its 16 places in index order (R110, R172,
R193). The revision is a free value (log entry 2). -/
def Obligations.HelloAndReadRoutesAnswer : Prop :=
  ∀ (s : State) (tag : Byte),
    (Takes s ⟨0x01, tag, []⟩ →
      Answers (.hello tag []) ⟨0x01, tag, []⟩ s .ok [0x34, Config.revision, 4, 32, 96, 48, 8, 16, 48, 16, 8, 2, 4] s)
    ∧ (Takes s ⟨0x36, tag, []⟩ →
        Answers (.readRoutes tag []) ⟨0x36, tag, []⟩ s .ok
          ((List.finRange 16).flatMap fun i => match s.route i with
            | none => [0, 0]
            | some t =>
              [byte (t.src.slot.val + 32 * t.src.lane.val + 128),
                byte (t.dst.slot.val + 32 * t.dst.lane.val + 128 * (if t.mode = .onChange then 1 else 0))]) s)

/-- LINK_RESET empties the cache and makes no entry for itself, clears the credit and the numbering, and returns what is in flight to
pending with the re-merge; where that freed places and reports were lost, REPORTS_LOST is appended (R146, R166, R174). -/
def Obligations.LinkResetReturnsWhatIsInFlight : Prop :=
  ∀ (s : State) (tag : Byte), Takes s ⟨0x03, tag, []⟩ →
    let returned := s.reports.inFlight.map SentReport.report ++ s.reports.unsent
    let merged := remerged returned
    let lost := merged.length < returned.length ∧ s.reports.lostCount ≠ 0
    let unsent := if lost then merged ++ [.reportsLost s.reports.lostCount s.reports.lostKinds] else merged
    exec (.linkReset tag []) s = .next { s with
      reports :=
        { inFlight := [], unsent
          lostCount := if lost then 0 else s.reports.lostCount
          lostKinds := if lost then 0 else s.reports.lostKinds }
      hli := { s.hli with
        buffer := s.hli.buffer.tail
        replies := s.hli.replies ++ [{ tag, code := 0x03, status := .ok, fields := [byte unsent.length] }]
        cache := [], credit := 0, nextReportSeq := 1 } }

/-- READ_LINK_STATUS answers the four counts, the limit and HOST_SILENT, and clears the counts where its option is 1. SET_SILENCE_LIMIT sets
the limit; one of 0 stops the timer, one above 0 restarts it while the part is not HOST_SILENT, which is left as it was (R167, R168, R175,
R176). That the timer stays stopped while the part is HOST_SILENT is the model's reading (log entry 12). -/
def Obligations.LinkStatusAndSilenceLimit : Prop :=
  ∀ (s : State) (tag value : Byte),
    let c := s.hli.counts
    let fields := [byte c.framing, byte (c.framing / 256), byte c.crc, byte (c.crc / 256), byte c.overrun, byte (c.overrun / 256),
      byte c.duplicate, byte (c.duplicate / 256), s.hli.silenceLimit, if s.hli.hostSilent then 1 else 0]
    (Takes s ⟨0x04, tag, [value]⟩ →
      (value = 0 → Answers (.readLinkStatus tag [value]) ⟨0x04, tag, [value]⟩ s .ok fields s)
      ∧ (value = 1 → Answers (.readLinkStatus tag [value]) ⟨0x04, tag, [value]⟩ s .ok fields
          { s with hli := { s.hli with counts := { framing := 0, crc := 0, overrun := 0, duplicate := 0 } } })
      ∧ (2 ≤ value.toNat → Refuses (.readLinkStatus tag [value]) ⟨0x04, tag, [value]⟩ s .badValue))
    ∧ (Takes s ⟨0x05, tag, [value]⟩ →
        Answers (.setSilenceLimit tag [value]) ⟨0x05, tag, [value]⟩ s .ok []
          { s with hli := { s.hli with
              silenceLimit := value
              silenceTimer := if value = 0 ∨ s.hli.hostSilent = true then .stopped else .running 0 } })

/-! ## Lane requests -/

/-- CONFIG_LANE: a field out of its range refuses the whole request with BAD_VALUE before the condition is looked at; a lane that is not
HALTED refuses with BAD_STATE; an accepted one replaces the record whole and sets both runs to 0 (R26, R133, R177). -/
def Obligations.ConfigLaneReplacesTheRecord : Prop :=
  ∀ (s : State) (tag : Byte) (l : LaneId) (rate filter timeout gap turnaround probe recover pulse settle : Byte),
    let body := [byte l.val, rate, filter, timeout, gap, turnaround, probe, recover, pulse, settle]
    Takes s ⟨0x10, tag, body⟩ →
    let inRange := rate.toNat ≤ 4 ∧ filter.toNat ≤ 1 ∧ 2 ≤ timeout.toNat ∧ timeout.toNat ≤ 40 ∧ 1 ≤ gap.toNat ∧ gap.toNat ≤ 12
      ∧ 2 ≤ turnaround.toNat ∧ turnaround.toNat ≤ 16 ∧ 1 ≤ probe.toNat ∧ probe.toNat ≤ 32 ∧ recover.toNat ≤ 1
      ∧ 4 ≤ pulse.toNat ∧ pulse.toNat ≤ 24 ∧ 16 ≤ settle.toNat
    (¬ inRange → Refuses (.configLane tag body) ⟨0x10, tag, body⟩ s .badValue)
    ∧ (inRange → (s.lane l).condition ≠ .halted → Refuses (.configLane tag body) ⟨0x10, tag, body⟩ s .badState)
    ∧ (inRange → (s.lane l).condition = .halted →
        Answers (.configLane tag body) ⟨0x10, tag, body⟩ s .ok []
          (s.setLane l { s.lane l with
            config :=
              { bitRate := if rate = 0 then .bps1200 else if rate = 1 then .bps2400 else if rate = 2 then .bps4800
                  else if rate = 3 then .bps9600 else .bps19200
                sampleFilter := filter = 1, responseTimeout := timeout.toNat, gapLimit := gap.toNat
                turnaroundGap := turnaround.toNat, probeInterval := probe.toNat, autoRecover := recover = 1
                wakePulse := pulse.toNat, wakeSettle := settle.toNat }
            line := { (s.lane l).line with dominantRun := 0, recessiveRun := 0 } }))

/-- LANE_START: a HALTED lane enters RUNNING with LANE_CHANGE, the swap and the choice; a SLEEPING or WAKING lane takes resume condition
RUNNING; RUNNING, HALTING and SLEEP_PENDING refuse it (R83, R84, R116, R130). -/
def Obligations.LaneStartByCondition : Prop :=
  ∀ (s : State) (tag : Byte) (l : LaneId), Takes s ⟨0x11, tag, [byte l.val]⟩ →
    let L := s.lane l
    let c := Instr.laneStart tag [byte l.val]
    let f : Frame := ⟨0x11, tag, [byte l.val]⟩
    (L.condition = .halted →
      Answers c f s .ok []
        (choose l { s.setLane l { L with condition := .running, schedules := L.swapped, round := L.round.abandoned } with
          reports := (.laneChange l .halted .running .request :: L.swapReports l).foldl ReportQueue.handOver s.reports }))
    ∧ (L.condition = .sleeping ∨ L.condition = .waking →
        Answers c f s .ok [] (s.setLane l { L with resume := .running }))
    ∧ (L.condition = .running ∨ L.condition = .halting ∨ L.condition = .sleepPending → Refuses c f s .badState)

/-- LANE_HALT: a RUNNING lane with a transaction in progress enters HALTING with follow-ups forbidden and no report, one without enters
HALTED with LANE_CHANGE and the swap; a SLEEPING or WAKING lane takes resume condition HALTED; HALTED, HALTING and SLEEP_PENDING refuse it
(R61, R83, R117, R130). -/
def Obligations.LaneHaltByCondition : Prop :=
  ∀ (s : State) (tag : Byte) (l : LaneId), Takes s ⟨0x12, tag, [byte l.val]⟩ →
    let L := s.lane l
    let c := Instr.laneHalt tag [byte l.val]
    let f : Frame := ⟨0x12, tag, [byte l.val]⟩
    (∀ t, L.condition = .running → L.transaction = some t →
      Answers c f s .ok []
        (s.setLane l { L with condition := .halting, transaction := some { t with followUpsForbidden := true } }))
    ∧ (L.condition = .running → L.transaction = none →
        Answers c f s .ok []
          { s.setLane l { L with condition := .halted, schedules := L.swapped, round := L.round.abandoned } with
            reports := (.laneChange l .running .halted .request :: L.swapReports l).foldl ReportQueue.handOver s.reports })
    ∧ (L.condition = .sleeping ∨ L.condition = .waking →
        Answers c f s .ok [] (s.setLane l { L with resume := .halted }))
    ∧ (L.condition = .halted ∨ L.condition = .halting ∨ L.condition = .sleepPending → Refuses c f s .badState)

/-- LANE_START and LANE_HALT in FAULTED set the resume condition; with auto-recover off they arm recovery, and with the quiet complete the
lane leaves at once for that condition (R127 to R130). That nothing is armed with auto-recover on, and that a swap sets the round position
in FAULTED too, are the model's readings (log entries 11 and 26). -/
def Obligations.RecoveryIsArmedByRequest : Prop :=
  ∀ (s : State) (tag : Byte) (l : LaneId) (c : Instr) (f : Frame) (resume : Resume),
    (c = .laneStart tag [byte l.val] ∧ f = ⟨0x11, tag, [byte l.val]⟩ ∧ resume = .running
      ∨ c = .laneHalt tag [byte l.val] ∧ f = ⟨0x12, tag, [byte l.val]⟩ ∧ resume = .halted) →
    Takes s f → (s.lane l).condition = .faulted →
    let L := s.lane l
    let left : Lane :=
      { L with
        resume, recoveryArmed := false, line := { L.line with drainOwed := false }, schedules := L.swapped }
    (L.config.autoRecover = true → Answers c f s .ok [] (s.setLane l { L with resume }))
    ∧ (L.config.autoRecover = false → L.line.recessiveRun < 128 →
        Answers c f s .ok [] (s.setLane l { L with resume, recoveryArmed := true }))
    ∧ (L.config.autoRecover = false → 128 ≤ L.line.recessiveRun → resume = .halted →
        Answers c f s .ok []
          { s.setLane l { left with
              condition := .halted
              round := { L.round with position := if L.schedules.staged.isSome then 0 else L.round.position } } with
            reports := (.laneChange l .faulted .halted .recovered :: L.swapReports l).foldl ReportQueue.handOver s.reports })
    ∧ (L.config.autoRecover = false → 128 ≤ L.line.recessiveRun → resume = .running →
        Answers c f s .ok []
          (choose l { s.setLane l { left with condition := .running, round := L.round.abandoned } with
            reports := (.laneChange l .faulted .running .recovered :: L.swapReports l).foldl ReportQueue.handOver s.reports }))

/-- LANE_SLEEP on a RUNNING or HALTED lane: the resume condition is the lane's condition, the lane enters SLEEP_PENDING with LANE_CHANGE,
from RUNNING follow-ups are forbidden and the round is abandoned, and with no transaction in progress the sleep call begins at once; in
every other condition it is refused (R61, R83, R118). That the receive position of the wait before a call is cell 0, bit 0 is the model's
reading (log entry 14). -/
def Obligations.LaneSleepBeginsTheSleepCall : Prop :=
  ∀ (s : State) (tag : Byte) (l : LaneId), Takes s ⟨0x13, tag, [byte l.val]⟩ →
    let L := s.lane l
    let c := Instr.laneSleep tag [byte l.val]
    let f : Frame := ⟨0x13, tag, [byte l.val]⟩
    let call : Transaction :=
      { source := .sleepCall, oneShot := none, slot := 0, kind := .published, phase := .gap, allowance := none
        followUpsForbidden := false, sendData := some [0x5A], tag := none, header := none, data := []
        pendingResult := .notSampled, checkMatched := false }
    let line := { L.line with position := some (0, 0) }
    (L.condition = .halted → L.transaction = none →
      Answers c f s .ok []
        { s.setLane l { L with condition := .sleepPending, resume := .halted, transaction := some call, line } with
          reports := s.reports.handOver (.laneChange l .halted .sleepPending .request) })
    ∧ (L.condition = .running → L.transaction = none →
        Answers c f s .ok []
          { s.setLane l
              { L with
                condition := .sleepPending, resume := .running, transaction := some call, line
                round := L.round.abandoned } with
            reports := s.reports.handOver (.laneChange l .running .sleepPending .request) })
    ∧ (∀ t, L.condition = .running → L.transaction = some t →
        Answers c f s .ok []
          { s.setLane l
              { L with
                condition := .sleepPending, resume := .running
                transaction := some { t with followUpsForbidden := true }, round := L.round.abandoned } with
            reports := s.reports.handOver (.laneChange l .running .sleepPending .request) })
    ∧ (L.condition ≠ .halted → L.condition ≠ .running → Refuses c f s .badState)

/-- LANE_WAKE takes a SLEEPING lane to WAKING and begins the wake pulse, with both runs at 0; in every other condition it is refused (R26,
R122). The count of the pulse's bit times is the model's own (log entry 30). -/
def Obligations.LaneWakeBeginsThePulse : Prop :=
  ∀ (s : State) (tag : Byte) (l : LaneId), Takes s ⟨0x14, tag, [byte l.val]⟩ →
    let L := s.lane l
    let c := Instr.laneWake tag [byte l.val]
    let f : Frame := ⟨0x14, tag, [byte l.val]⟩
    (L.condition = .sleeping →
      Answers c f s .ok []
        { s.setLane l
            { L with
              condition := .waking
              line := { L.line with driving := true, dominantRun := 0, recessiveRun := 0, waited := 0 } } with
          reports := s.reports.handOver (.laneChange l .sleeping .waking .request) })
    ∧ (L.condition ≠ .sleeping → Refuses c f s .badState)

/-- READ_LANE_STATUS answers the fields of its reply table in every condition, and clears the lane counts where its option is 1.
CLEAR_CAPTURE answers the capture block as it stood, and then empties and arms the capture with faults-since-capture 0 (R54, R57, R179,
R180). -/
def Obligations.LaneStatusAndCapture : Prop :=
  ∀ (s : State) (tag option : Byte) (l : LaneId),
    let L := s.lane l
    let block : List Byte := match L.capture with
      | none => [0, 0xFF, 0xFF, 0xFF, 0xFF, 0xFF, 0xFF, byte L.faultsSince]
      | some k =>
        [1, k.outcome.code, byte k.slot.val, byte k.cell, byte k.bit, byte k.round.toNat, byte (k.round.toNat / 256),
          byte L.faultsSince]
    let count : Option (List Entry) → Byte := fun x => match x with
      | none => 0xFF
      | some es => byte es.length
    let fields :=
      [L.condition.code, if L.resume = .running then 1 else 0, byte L.round.counter.toNat, byte (L.round.counter.toNat / 256),
        byte L.counts.good, byte (L.counts.good / 256), byte L.counts.silent, byte (L.counts.silent / 256),
        byte L.counts.faulty, byte (L.counts.faulty / 256)] ++ block
        ++ [byte L.oneShots.length, byte L.schedules.active.length, count L.schedules.staged, count L.schedules.builder]
    let body := [byte l.val, option]
    (Takes s ⟨0x15, tag, body⟩ →
      (option = 0 → Answers (.readLaneStatus tag body) ⟨0x15, tag, body⟩ s .ok fields s)
      ∧ (option = 1 → Answers (.readLaneStatus tag body) ⟨0x15, tag, body⟩ s .ok fields
          (s.setLane l { L with counts := { good := 0, silent := 0, faulty := 0 } }))
      ∧ (2 ≤ option.toNat → Refuses (.readLaneStatus tag body) ⟨0x15, tag, body⟩ s .badValue))
    ∧ (Takes s ⟨0x16, tag, [byte l.val]⟩ →
        Answers (.clearCapture tag [byte l.val]) ⟨0x16, tag, [byte l.val]⟩ s .ok block
          (s.setLane l { L with capture := none, faultsSince := 0 }))

/-! ## Slot requests -/

/-- DEFINE_SLOT of a slot that nothing names gives the record the kind and parameters asked for and every other field its starting value; of
one that is named it is refused with IN_USE. A field that is out of its list or range is refused with BAD_VALUE before that (R5, R181). -/
def Obligations.DefineSlotStartsAfresh : Prop :=
  (∀ (s : State) (tag : Byte) (l : LaneId) (k : SlotId) (kind form n mode param : Byte),
    let body := [byte l.val, byte k.val, kind, form, n, mode, param]
    ¬ ((kind = 1 ∧ (param = 255 ∨ 1 ≤ param.toNat ∧ param.toNat ≤ 15) ∨ kind = 2 ∧ (param = 255 ∨ param.toNat ≤ 7)
        ∨ kind = 3 ∧ form = 0 ∧ mode = 0 ∧ param = 0) ∧ form.toNat ≤ 1 ∧ n.toNat ≤ 12 ∧ mode.toNat ≤ 2) →
    Takes s ⟨0x20, tag, body⟩ → Refuses (.defineSlot tag body) ⟨0x20, tag, body⟩ s .badValue)
  ∧ ∀ (s : State) (tag : Byte) (l : LaneId) (k : SlotId) (kind : Byte) (rule : LengthRule) (mode : ReportMode) (param : Byte)
      (record : SlotRecord),
    k ≠ 0 → rule.bound ≤ 12 →
    (kind = 1 ∧ (∃ limit, (param = 255 ∧ limit = 3 ∨ param ≠ 255 ∧ 1 ≤ param.toNat ∧ param.toNat ≤ 15 ∧ limit = param.toNat)
        ∧ record = .polled
          { rule, mode, absenceLimit := limit, data := none, seq := 0, attention := false, lastOutcome := none, missCount := 0
            presence := .present, skipCount := 0 })
      ∨ kind = 2 ∧ (∃ budget, (param = 255 ∧ budget = 3 ∨ param ≠ 255 ∧ param.toNat ≤ 7 ∧ budget = param.toNat)
        ∧ record = .contended
          { rule, mode, budget, data := none, seq := 0, lastTag := none, attention := false, lastOutcome := none
            backlog := false })
      ∨ kind = 3 ∧ mode = .silent ∧ param = 0 ∧ ∃ n, rule = .exact n
        ∧ record = .published
          { length := n, data := none, seq := 0, lastOutcome := none, failsafe := none, failsafeActive := false }) →
    let body := [byte l.val, byte k.val, kind, rule.form, byte rule.bound, mode.code, param]
    Takes s ⟨0x20, tag, body⟩ →
    (Referenced s ⟨l, k⟩ → Refuses (.defineSlot tag body) ⟨0x20, tag, body⟩ s .inUse)
    ∧ (¬ Referenced s ⟨l, k⟩ →
        Answers (.defineSlot tag body) ⟨0x20, tag, body⟩ s .ok [] (s.setSlot ⟨l, k⟩ record))

/-- CLEAR_SLOT of a slot that nothing names returns its record to UNDEFINED, and of one that is named it is refused with IN_USE (R6, R182).
-/
def Obligations.ClearSlotReturnsToUndefined : Prop :=
  ∀ (s : State) (tag : Byte) (l : LaneId) (k : SlotId), k ≠ 0 →
    let body := [byte l.val, byte k.val]
    Takes s ⟨0x21, tag, body⟩ →
    (Referenced s ⟨l, k⟩ → Refuses (.clearSlot tag body) ⟨0x21, tag, body⟩ s .inUse)
    ∧ (¬ Referenced s ⟨l, k⟩ →
        Answers (.clearSlot tag body) ⟨0x21, tag, body⟩ s .ok [] (s.setSlot ⟨l, k⟩ .undefined))

/-- WRITE_SLOT makes the checks of R183 in their order; an accepted one replaces the data, increments the sequence, clears the
failsafe-active flag and answers the new sequence (R17, R22, R183). -/
def Obligations.WriteSlotReplacesTheData : Prop :=
  ∀ (s : State) (tag : Byte) (l : LaneId) (k : SlotId) (data : List Byte), k ≠ 0 → data.length ≤ 12 →
    let body := byte l.val :: byte k.val :: data
    let f : Frame := ⟨0x22, tag, body⟩
    Takes s f →
    (s.slot ⟨l, k⟩ = .undefined → Refuses (.writeSlot tag body) f s .undefinedSlot)
    ∧ (∀ p, s.slot ⟨l, k⟩ = .polled p → Refuses (.writeSlot tag body) f s .wrongKind)
    ∧ (∀ p, s.slot ⟨l, k⟩ = .contended p → Refuses (.writeSlot tag body) f s .wrongKind)
    ∧ (∀ p, s.slot ⟨l, k⟩ = .published p → RouteFed s ⟨l, k⟩ → Refuses (.writeSlot tag body) f s .routed)
    ∧ (∀ p, s.slot ⟨l, k⟩ = .published p → ¬ RouteFed s ⟨l, k⟩ → data.length ≠ p.length →
        Refuses (.writeSlot tag body) f s .badValue)
    ∧ (∀ p, s.slot ⟨l, k⟩ = .published p → ¬ RouteFed s ⟨l, k⟩ → data.length = p.length →
        Answers (.writeSlot tag body) f s .ok [p.seq + 1]
          (s.setSlot ⟨l, k⟩ (.published { p with data := some data, seq := p.seq + 1, failsafeActive := false })))

/-- READ_SLOT of any slot of a lane, the sleep slot too, answers every field of its record, a field that the kind does not hold as 0xFF, and
whether the slot is a route destination; it changes nothing, and a slot above 31 is refused (R1, R23, R184, R196). -/
def Obligations.ReadSlotReturnsTheRecord : Prop :=
  ∀ (s : State) (tag slot : Byte) (l : LaneId),
    let body := [byte l.val, slot]
    Takes s ⟨0x23, tag, body⟩ →
    (32 ≤ slot.toNat → Refuses (.readSlot tag body) ⟨0x23, tag, body⟩ s .badValue)
    ∧ ∀ (k : SlotId) (fed : Byte), slot = byte k.val →
        (RouteFed s ⟨l, k⟩ ∧ fed = 1 ∨ ¬ RouteFed s ⟨l, k⟩ ∧ fed = 0) →
        let flag : Bool → Byte := fun b => if b then 1 else 0
        let outcome : Option TxOutcome → Byte := fun o => match o with
          | none => 0xFF
          | some o => o.code
        let bytes : Option (List Byte) → List Byte := fun d => match d with
          | none => [0xFF]
          | some d => byte d.length :: d
        Answers (.readSlot tag body) ⟨0x23, tag, body⟩ s .ok
          (match s.slot ⟨l, k⟩ with
            | .undefined => [0, 0xFF, 0xFF, 0xFF, 0xFF, 0xFF, 0xFF, 0xFF, 0xFF, 0xFF, 0xFF, 0xFF, 0xFF, 0xFF, fed, 0xFF, 0xFF]
            | .polled r =>
              [1, r.rule.form, byte r.rule.bound, r.mode.code, byte r.absenceLimit, r.seq, 0xFF, flag r.attention,
                outcome r.lastOutcome, byte r.missCount, r.presence.code, byte r.skipCount, 0xFF, 0xFF, fed] ++ bytes r.data
                ++ [0xFF]
            | .contended r =>
              [2, r.rule.form, byte r.rule.bound, r.mode.code, byte r.budget, r.seq,
                match r.lastTag with
                | none => 0
                | some n => byte n.toNat,
                flag r.attention, outcome r.lastOutcome, 0xFF, 0xFF, 0xFF, flag r.backlog, 0xFF, fed] ++ bytes r.data ++ [0xFF]
            | .published r =>
              [3, 0, byte r.length, 0, 0xFF, r.seq, 0xFF, 0, outcome r.lastOutcome, 0xFF, 0xFF, 0xFF, 0xFF,
                flag r.failsafeActive, fed] ++ bytes r.data ++ bytes r.failsafe) s

/-- SET_FAILSAFE makes the checks of R185 in their order. A setting replaces the failsafe data, and with the failsafe active the current
data too, with the sequence incremented; a clearing removes the failsafe data and the flag. The sequence and the flag are answered (R20,
R185). -/
def Obligations.SetFailsafeSetsAndClears : Prop :=
  ∀ (s : State) (tag operation : Byte) (l : LaneId) (k : SlotId) (data : List Byte), k ≠ 0 → data.length ≤ 12 →
    let body := byte l.val :: byte k.val :: operation :: data
    let f : Frame := ⟨0x24, tag, body⟩
    let c := Instr.setFailsafe tag body
    Takes s f →
    (2 ≤ operation.toNat → Refuses c f s .badValue)
    ∧ (operation.toNat < 2 → s.slot ⟨l, k⟩ = .undefined → Refuses c f s .undefinedSlot)
    ∧ (∀ p, operation.toNat < 2 → s.slot ⟨l, k⟩ = .polled p → Refuses c f s .wrongKind)
    ∧ (∀ p, operation.toNat < 2 → s.slot ⟨l, k⟩ = .contended p → Refuses c f s .wrongKind)
    ∧ (∀ p, operation.toNat < 2 → s.slot ⟨l, k⟩ = .published p → RouteFed s ⟨l, k⟩ → Refuses c f s .routed)
    ∧ (∀ p, s.slot ⟨l, k⟩ = .published p → ¬ RouteFed s ⟨l, k⟩ →
        (operation = 0 ∧ data.length ≠ p.length ∨ operation = 1 ∧ data ≠ []) → Refuses c f s .badValue)
    ∧ (∀ p, s.slot ⟨l, k⟩ = .published p → ¬ RouteFed s ⟨l, k⟩ → operation = 0 → data.length = p.length →
        p.failsafeActive = false →
        Answers c f s .ok [p.seq, 0] (s.setSlot ⟨l, k⟩ (.published { p with failsafe := some data })))
    ∧ (∀ p, s.slot ⟨l, k⟩ = .published p → ¬ RouteFed s ⟨l, k⟩ → operation = 0 → data.length = p.length →
        p.failsafeActive = true →
        Answers c f s .ok [p.seq + 1, 1]
          (s.setSlot ⟨l, k⟩ (.published { p with failsafe := some data, data := some data, seq := p.seq + 1 })))
    ∧ (∀ p, s.slot ⟨l, k⟩ = .published p → ¬ RouteFed s ⟨l, k⟩ → operation = 1 → data = [] →
        Answers c f s .ok [p.seq, 0]
          (s.setSlot ⟨l, k⟩ (.published { p with failsafe := none, failsafeActive := false })))

/-! ## Schedule requests -/

/-- SCHED_OPEN makes the builder BUILDING with no entries, SCHED_DISCARD makes it NONE, and both answer the free places of the pool after
them; SCHED_DISCARD with no builder is refused with NOT_OPEN (R73, R76, R186, R188). -/
def Obligations.BuildersAreOpenedAndDiscarded : Prop :=
  ∀ (s : State) (tag : Byte) (l : LaneId),
    let free : State → Byte := fun t => byte (96 - ((List.finRange 4).map fun m => (t.lane m).schedules.held).sum)
    let x := (s.lane l).schedules
    let opened := s.setLane l { s.lane l with schedules := { x with builder := some [] } }
    let discarded := s.setLane l { s.lane l with schedules := { x with builder := none } }
    (Takes s ⟨0x28, tag, [byte l.val]⟩ →
      Answers (.schedOpen tag [byte l.val]) ⟨0x28, tag, [byte l.val]⟩ s .ok [free opened] opened)
    ∧ (Takes s ⟨0x2B, tag, [byte l.val]⟩ → x.builder.isSome →
        Answers (.schedDiscard tag [byte l.val]) ⟨0x2B, tag, [byte l.val]⟩ s .ok [free discarded] discarded)
    ∧ (Takes s ⟨0x2B, tag, [byte l.val]⟩ → x.builder = none →
        Refuses (.schedDiscard tag [byte l.val]) ⟨0x2B, tag, [byte l.val]⟩ s .notOpen)

/-- SCHED_ADD of 1 to 24 entries that pass their checks appends them in the order carried, or is refused with NO_SPACE where the builder
would pass 48 or the pool 96; without a builder it is refused with NOT_OPEN, whatever its entries. An entry behind entries that pass is refused with
UNDEFINED_SLOT where its slot is UNDEFINED, and with BAD_VALUE where its exponent is 5 to 15 or its phase not below its divider (R70, R72,
R74, R187). -/
def Obligations.SchedAddAppendsWholeOrNothing : Prop :=
  (∀ (s : State) (tag : Byte) (l : LaneId) (carried : List Byte),
    let body := byte l.val :: carried
    let f : Frame := ⟨0x29, tag, body⟩
    Takes s f → 3 ≤ body.length → body.length ≤ 49 → body.length % 2 = 1 → (s.lane l).schedules.builder = none →
    Refuses (.schedAdd tag body) f s .notOpen)
  ∧ (∀ (s : State) (tag : Byte) (l : LaneId) (held before : List Entry) (k : SlotId) (timing : Byte) (rest : List Byte), k ≠ 0 →
    let body := byte l.val :: before.flatMap Entry.bytes ++ byte k.val :: timing :: rest
    let f : Frame := ⟨0x29, tag, body⟩
    Takes s f → body.length ≤ 49 → body.length % 2 = 1 → (s.lane l).schedules.builder = some held →
    (∀ e ∈ before, e.slot ≠ 0 ∧ s.slot ⟨l, e.slot⟩ ≠ .undefined ∧ e.phase < 2 ^ e.exponent.val) →
    (s.slot ⟨l, k⟩ = .undefined → Refuses (.schedAdd tag body) f s .undefinedSlot)
    ∧ (s.slot ⟨l, k⟩ ≠ .undefined → (5 ≤ timing.toNat % 16 ∨ 2 ^ (timing.toNat % 16) ≤ timing.toNat / 16) →
        Refuses (.schedAdd tag body) f s .badValue))
  ∧ ∀ (s : State) (tag : Byte) (l : LaneId) (entries : List Entry), entries ≠ [] → entries.length ≤ 24 →
    (∀ e ∈ entries, e.slot ≠ 0 ∧ s.slot ⟨l, e.slot⟩ ≠ .undefined ∧ e.phase < 2 ^ e.exponent.val) →
    let body := byte l.val :: entries.flatMap Entry.bytes
    let f : Frame := ⟨0x29, tag, body⟩
    Takes s f →
    let x := (s.lane l).schedules
    let places : State → Nat := fun t => ((List.finRange 4).map fun m => (t.lane m).schedules.held).sum
    (∀ held, x.builder = some held → (48 < held.length + entries.length ∨ 96 < places s + entries.length) →
        Refuses (.schedAdd tag body) f s .noSpace)
    ∧ (∀ held, x.builder = some held → held.length + entries.length ≤ 48 → places s + entries.length ≤ 96 →
        Answers (.schedAdd tag body) f s .ok
          [byte (held.length + entries.length), byte (96 - (places s + entries.length))]
          (s.setLane l { s.lane l with schedules := { x with builder := some (held ++ entries) } }))

/-- SCHED_COMMIT moves the builder into the staged place, replacing a staged schedule. On a HALTED lane, and on a RUNNING one with an empty
active schedule and no transaction in progress, it is swapped in at once with its report, and the RUNNING lane then chooses; without a
builder it is refused with NOT_OPEN (R75, R84, R85, R87, R188). -/
def Obligations.SchedCommitStagesOrSwaps : Prop :=
  ∀ (s : State) (tag : Byte) (l : LaneId), Takes s ⟨0x2A, tag, [byte l.val]⟩ →
    let L := s.lane l
    let c := Instr.schedCommit tag [byte l.val]
    let f : Frame := ⟨0x2A, tag, [byte l.val]⟩
    (L.schedules.builder = none → Refuses c f s .notOpen)
    ∧ (∀ entries, L.schedules.builder = some entries →
        let swapped : State :=
          { s.setLane l
              { L with
                schedules := { builder := none, staged := none, active := entries }
                round := { L.round with position := 0 } } with
            reports := s.reports.handOver (.scheduleSwapped l L.round.counter) }
        (L.condition = .halted → Answers c f s .ok [1] swapped)
        ∧ (L.condition = .running → L.schedules.active = [] → L.transaction = none →
            Answers c f s .ok [1] (choose l swapped))
        ∧ (L.condition ≠ .halted → (L.condition = .running → L.schedules.active ≠ [] ∨ L.transaction.isSome) →
            Answers c f s .ok [0]
              (s.setLane l { L with schedules := { L.schedules with builder := none, staged := some entries } })))

/-- READ_SCHEDULE answers whether the schedule asked for is present, its total, and at most 24 entries from the start index on; a schedule
other than ACTIVE and STAGED and a start above 47 are refused (R77, R189). -/
def Obligations.ReadScheduleAnswers : Prop :=
  ∀ (s : State) (tag which start : Byte) (l : LaneId),
    let body := [byte l.val, which, start]
    let f : Frame := ⟨0x2C, tag, body⟩
    Takes s f →
    let fields : List Entry → List Byte := fun es =>
      let returned := (es.drop start.toNat).take 24
      [1, byte es.length, byte returned.length]
        ++ returned.flatMap fun e => [byte e.slot.val, byte (e.exponent.val + 16 * e.phase)]
    ((2 ≤ which.toNat ∨ 48 ≤ start.toNat) → Refuses (.readSchedule tag body) f s .badValue)
    ∧ (start.toNat ≤ 47 → which = 0 →
        Answers (.readSchedule tag body) f s .ok (fields (s.lane l).schedules.active) s)
    ∧ (∀ es, start.toNat ≤ 47 → which = 1 → (s.lane l).schedules.staged = some es →
        Answers (.readSchedule tag body) f s .ok (fields es) s)
    ∧ (start.toNat ≤ 47 → which = 1 → (s.lane l).schedules.staged = none →
        Answers (.readSchedule tag body) f s .ok [0, 0, 0] s)

/-! ## One-shot requests -/

/-- SEND_ONCE makes the checks of R94 in their order from the slot on. -/
def Obligations.SendOnceIsCheckedInOrder : Prop :=
  ∀ (s : State) (tag : Byte) (l : LaneId) (k : SlotId) (data : List Byte), k ≠ 0 → data.length ≤ 12 →
    let body := byte l.val :: byte k.val :: data
    let f : Frame := ⟨0x30, tag, body⟩
    let c := Instr.sendOnce tag body
    let L := s.lane l
    let open_ := L.condition = .halted ∨ L.condition = .running ∨ L.condition = .halting ∨ L.condition = .waking
    let polled := ∃ p, s.slot ⟨l, k⟩ = .polled p
    let contended := ∃ p, s.slot ⟨l, k⟩ = .contended p
    Takes s f →
    (s.slot ⟨l, k⟩ = .undefined → Refuses c f s .undefinedSlot)
    ∧ (s.slot ⟨l, k⟩ ≠ .undefined → ¬ open_ → Refuses c f s .badState)
    ∧ (open_ → ∀ p, s.slot ⟨l, k⟩ = .published p → RouteFed s ⟨l, k⟩ → Refuses c f s .routed)
    ∧ (open_ → ∀ p, s.slot ⟨l, k⟩ = .published p → ¬ RouteFed s ⟨l, k⟩ → data.length ≠ p.length → Refuses c f s .badValue)
    ∧ (open_ → (polled ∨ contended) → data ≠ [] → Refuses c f s .badValue)
    ∧ (open_ → (polled ∨ contended) → data = [] → 8 ≤ L.oneShots.length → Refuses c f s .queueFull)
    ∧ (open_ → ∀ p, s.slot ⟨l, k⟩ = .published p → ¬ RouteFed s ⟨l, k⟩ → data.length = p.length → 8 ≤ L.oneShots.length →
        Refuses c f s .queueFull)

/-- An accepted SEND_ONCE issues the first handle from the next one on that no one-shot holds and appends the record to the queue, POLL for
a polled or contended slot and PUBLISH with its data for a published one; a RUNNING lane with no transaction in progress then chooses, and
the reply carries the handle and the queue length at the end (R93, R95, R190). How handles held are passed over is the model's reading (log
entry 13). -/
def Obligations.SendOnceIssuesAHandle : Prop :=
  ∀ (s : State) (tag : Byte) (l : LaneId) (k : SlotId) (data : List Byte) (kind : OneShotKind) (carried : Option (List Byte)),
    k ≠ 0 → data.length ≤ 12 → HandlesWf s → LanesWf s →
    let body := byte l.val :: byte k.val :: data
    let f : Frame := ⟨0x30, tag, body⟩
    let c := Instr.sendOnce tag body
    let L := s.lane l
    Takes s f →
    (L.condition = .halted ∨ L.condition = .running ∨ L.condition = .halting ∨ L.condition = .waking) →
    L.oneShots.length < 8 →
    (data = [] ∧ kind = .poll ∧ carried = none ∧ ((∃ p, s.slot ⟨l, k⟩ = .polled p) ∨ ∃ p, s.slot ⟨l, k⟩ = .contended p)
      ∨ kind = .publish ∧ carried = some data ∧ ¬ RouteFed s ⟨l, k⟩
        ∧ ∃ p, s.slot ⟨l, k⟩ = .published p ∧ data.length = p.length) →
    ∃ n, let handle := Nat.repeat nextNumber n s.nextHandle
      handle ∉ s.handles ∧ (∀ m, m < n → Nat.repeat nextNumber m s.nextHandle ∈ s.handles)
        ∧ (let queued : State :=
            { s.setLane l { L with oneShots := L.oneShots ++ [{ handle, slot := k, kind, data := carried }] } with
              nextHandle := nextNumber handle }
          let u := if L.condition = .running ∧ L.transaction = none then choose l queued else queued
          Answers c f s .ok [byte handle, byte (handle / 256), byte (u.lane l).oneShots.length] u)

/-- WITHDRAW removes a queued record with that handle, with its ONE_SHOT_DONE WITHDRAWN, and answers its lane; a running one-shot gives
TOO_LATE, and a handle that none holds UNKNOWN_HANDLE (R100, R191). That no choice follows is the model's reading (log entry 24). -/
def Obligations.WithdrawRemovesOrRefuses : Prop :=
  ∀ (s : State) (tag low high : Byte),
    let body := [low, high]
    let f : Frame := ⟨0x31, tag, body⟩
    let c := Instr.withdraw tag body
    let handle := low.toNat + 256 * high.toNat
    let queuedOn : LaneId → Prop := fun l => ∃ o ∈ (s.lane l).oneShots, o.handle = handle
    let runsOn : LaneId → Prop := fun l => ∃ t kind, (s.lane l).transaction = some t ∧ t.oneShot = some (handle, kind)
    Takes s f →
    (∀ l before o after, (s.lane l).oneShots = before ++ o :: after → o.handle = handle →
      (∀ x ∈ before, x.handle ≠ handle) → (∀ m, queuedOn m → m = l) →
      Answers c f s .ok [byte l.val]
        { s.setLane l { s.lane l with oneShots := before ++ after } with
          reports := s.reports.handOver (.oneShotDone l handle .withdrawn none none) })
    ∧ ((∀ l, ¬ queuedOn l) → (∃ l, runsOn l) → Refuses c f s .tooLate)
    ∧ ((∀ l, ¬ queuedOn l) → (∀ l, ¬ runsOn l) → Refuses c f s .unknownHandle)

/-! ## Route requests -/

/-- ROUTE_SET makes the checks of R107 in their order: the index, the lanes, the slots and the mode from the bytes carried, and then the slot
records and the routes held. -/
def Obligations.RouteSetIsCheckedInOrder : Prop :=
  (∀ (s : State) (tag index srcLane srcSlot dstLane dstSlot mode : Byte),
    let body := [index, srcLane, srcSlot, dstLane, dstSlot, mode]
    let f : Frame := ⟨0x34, tag, body⟩
    let c := Instr.routeSet tag body
    let lanes := srcLane.toNat < 4 ∧ dstLane.toNat < 4
    let slots := srcSlot ≠ 0 ∧ srcSlot.toNat < 32 ∧ dstSlot ≠ 0 ∧ dstSlot.toNat < 32
    Takes s f →
    (16 ≤ index.toNat → Refuses c f s .badValue)
    ∧ (index.toNat < 16 → ¬ lanes → Refuses c f s .badLane)
    ∧ (index.toNat < 16 → lanes → ¬ slots → Refuses c f s .badValue)
    ∧ (index.toNat < 16 → lanes → slots → 2 ≤ mode.toNat → Refuses c f s .badValue))
  ∧ ∀ (s : State) (tag : Byte) (i : Fin 16) (src dst : SlotRef) (mode : RouteMode), src.slot ≠ 0 → dst.slot ≠ 0 →
    let body := [byte i.val, byte src.lane.val, byte src.slot.val, byte dst.lane.val, byte dst.slot.val, mode.code]
    let f : Frame := ⟨0x34, tag, body⟩
    let c := Instr.routeSet tag body
    let sourceKind := ∃ rule, (s.slot src).lengthRule = some rule
    Takes s f →
    ((s.slot src = .undefined ∨ s.slot dst = .undefined) → Refuses c f s .undefinedSlot)
    ∧ (s.slot src ≠ .undefined → s.slot dst ≠ .undefined → (¬ sourceKind ∨ ∀ p, s.slot dst ≠ .published p) →
        Refuses c f s .wrongKind)
    ∧ (∀ rule p, (s.slot src).lengthRule = some rule → s.slot dst = .published p → rule ≠ .exact p.length →
        Refuses c f s .badValue)
    ∧ (∀ p, (s.slot src).lengthRule = some (.exact p.length) → s.slot dst = .published p →
        (∃ j t, j ≠ i ∧ s.route j = some t ∧ t.dst = dst) → Refuses c f s .inUse)

/-- An accepted ROUTE_SET stores the record at its index in place of any held there and clears the destination's failsafe-active flag, and
answers whether the place held a route; no copy is made. ROUTE_CLEAR empties its place and answers the same; an index above 15 is refused
(R108, R109, R192, R193). -/
def Obligations.RoutesAreSetAndCleared : Prop :=
  (∀ (s : State) (tag : Byte) (i : Fin 16) (src dst : SlotRef) (mode : RouteMode) (p : PublishedRec),
    src.slot ≠ 0 → dst.slot ≠ 0 → (s.slot src).lengthRule = some (.exact p.length) → s.slot dst = .published p →
    (∀ j t, s.route j = some t → t.dst = dst → j = i) →
    let body := [byte i.val, byte src.lane.val, byte src.slot.val, byte dst.lane.val, byte dst.slot.val, mode.code]
    Takes s ⟨0x34, tag, body⟩ →
    Answers (.routeSet tag body) ⟨0x34, tag, body⟩ s .ok [if (s.route i).isSome then 1 else 0]
      ((s.setRoute i (some { src, dst, mode })).setSlot dst (.published { p with failsafeActive := false })))
  ∧ (∀ (s : State) (tag index : Byte), Takes s ⟨0x35, tag, [index]⟩ →
      (16 ≤ index.toNat → Refuses (.routeClear tag [index]) ⟨0x35, tag, [index]⟩ s .badValue)
      ∧ ∀ i : Fin 16, index = byte i.val →
          Answers (.routeClear tag [index]) ⟨0x35, tag, [index]⟩ s .ok [if (s.route i).isSome then 1 else 0]
            (s.setRoute i none))

/-! ## Report requests -/

/-- REPORT_CREDIT n adds n to the credit, lowered so that credit and records in flight do not exceed 16, and answers the credit, the records
in flight and the records pending; n above 16 is refused (R142, R194). -/
def Obligations.ReportCreditIsLimited : Prop :=
  ∀ (s : State) (tag n : Byte), Takes s ⟨0x38, tag, [n]⟩ →
    let credit := min (s.hli.credit + n.toNat) (16 - s.reports.inFlight.length)
    (16 < n.toNat → Refuses (.reportCredit tag [n]) ⟨0x38, tag, [n]⟩ s .badValue)
    ∧ (n.toNat ≤ 16 →
        Answers (.reportCredit tag [n]) ⟨0x38, tag, [n]⟩ s .ok
          [byte credit, byte s.reports.inFlight.length, byte s.reports.unsent.length]
          { s with hli := { s.hli with credit } })

/-- REPORT_ACK of a record in flight removes it and every older one, appends REPORTS_LOST where reports were lost, leaves the credit, and
answers the records removed and still in flight; a number that no record in flight holds is refused with BAD_ACK (R141, R144, R145, R195).
-/
def Obligations.ReportAckRemovesThroughTheNumber : Prop :=
  ∀ (s : State) (tag low high : Byte), Takes s ⟨0x39, tag, [low, high]⟩ →
    let c := Instr.reportAck tag [low, high]
    let f : Frame := ⟨0x39, tag, [low, high]⟩
    let seq := low.toNat + 256 * high.toNat
    let q := s.reports
    ((∀ r ∈ q.inFlight, r.seq ≠ seq) → Refuses c f s .badAck)
    ∧ (∀ before r after, q.inFlight = before ++ r :: after → r.seq = seq → (∀ x ∈ before, x.seq ≠ seq) →
        (q.lostCount = 0 →
          Answers c f s .ok [byte (before.length + 1), byte after.length] { s with reports := { q with inFlight := after } })
        ∧ (q.lostCount ≠ 0 →
            Answers c f s .ok [byte (before.length + 1), byte after.length]
              { s with reports :=
                  { inFlight := after, unsent := q.unsent ++ [.reportsLost q.lostCount q.lostKinds], lostCount := 0
                    lostKinds := 0 } }))

/-! ## Lane events: the transaction -/

/-- The wait before a call ends with drain owed discharged and the first dominant bit of the call marker, which takes the snapshot of a
scheduled publish; a call read back whole goes on to SEND on a published slot, with the start bit of the header cell, and to AWAIT on any
other, with the line released; before the first cell and between cells a start bit that reads dominant begins the cell awaited, and one that
reads recessive is ignored (R18, R26, R29, R32, R34, R48, R49). The receive position, the recessive run that the end of the call cell leaves,
and the counts of bits and of waits are the model's readings (log entries 14, 15 and 30). -/
def Obligations.TheCallFollowsTheGap : Prop :=
  ∀ (s : State) (l : LaneId) (t : Transaction), (s.lane l).transaction = some t →
    let L := s.lane l
    (t.phase = .gap → exec (.gapWaitComplete l) s = .next (s.setLane l { L with
      transaction := some { t with
        phase := .call
        sendData := match t.source, s.slot ⟨l, t.slot⟩ with
          | .scheduled, .published p => p.data
          | _, _ => t.sendData }
      line := { L.line with
        driving := true, dominantRun := 0, recessiveRun := 0, drainOwed := false, position := some (0, 0), sent := 0
        waited := 0 } }))
    ∧ (t.phase = .call → t.kind = .published → exec (.callComplete l) s = .next (s.setLane l { L with
        transaction := some { t with phase := .send }
        line := { L.line with
          driving := true, dominantRun := 0, recessiveRun := 0, position := some (1, 0), sent := 0, waited := 0 } }))
    ∧ (t.phase = .call → t.kind ≠ .published → exec (.callComplete l) s = .next (s.setLane l { L with
        transaction := some { t with phase := .await }
        line := { L.line with
          driving := false, dominantRun := 0, recessiveRun := ((cellLevels (numberCell t.slot.val)).reverse.takeWhile id).length
          position := some (1, 0), sent := 0, waited := 0 } }))
    ∧ ∀ start : Samples 1, (t.phase = .await ∨ t.phase = .receive ∧ L.line.cell = none) →
        (start.levels L.config.sampleFilter = 0#1 → exec (.responseStartBit l start) s = .next (s.setLane l { L with
          transaction := some { t with phase := .receive }
          line := { L.line with
            dominantRun := 1, recessiveRun := 0, position := some (t.cellIndex, 0), waited := 0, cell := some [] } }))
        ∧ (start.levels L.config.sampleFilter = 1#1 → exec (.responseStartBit l start) s = .next s)

/-- What the engine samples, sends and receives as cells. The level of a bit is the majority of its three samples with the filter on, and the
sample at the centre with it off; a cell sent is a dominant start bit, its value with bit 0 first, and a recessive stop bit; the call and tag
cells, the header cell and the cells of a publish have their layouts; the CRC-8 takes the cells in the order sent, from 0xFF XOR the slot, each
value most significant bit first; the cell awaited and its index follow from the cells that have come; and a length rule says which lengths it
admits. A response cell with a recessive stop bit that passes its check is held: the tag, the header whose length the slot's rule admits, each
data cell; and the check cell of a contended response takes the transaction to its pending window, whether it matched or not (R3, R25, R31,
R33, R35, R36, R37, R40, R42, R49, R50, R197). The receive position, the runs after a cell and the bits already taken, which the cell must begin
with, are the model's readings (log entries 14, 15 and 30). -/
def Obligations.CellsThatPassAreHeld : Prop :=
  (∀ (w : Nat) (x : Samples w), x.levels false = x.centre
    ∧ ∀ i, (x.levels true).getLsbD i
        = decide (2 ≤ (x.early.getLsbD i).toNat + (x.centre.getLsbD i).toNat + (x.late.getLsbD i).toNat))
  ∧ (∀ v : Byte, cellLevels v = false :: (List.range 8).map v.getLsbD ++ [true])
  ∧ (∀ n : Nat, numberCell n = BitVec.ofNat 3 ((n * 5 + 3) % 8) ++ BitVec.ofNat 5 n)
  ∧ (∀ (length : Nat) (attention : Bool),
      headerCell length attention = (~~~ BitVec.ofNat 3 length) ++ BitVec.ofBool attention ++ BitVec.ofNat 4 length)
  ∧ (∀ (slot : SlotId) (cells : List Byte), crc8 slot cells
      = (cells.flatMap fun b => (List.range 8).map fun i => b.getLsbD (7 - i)).foldl
          (fun (crc : Byte) bit => if crc.msb = bit then crc <<< 1 else (crc <<< 1) ^^^ 0x1D#8) (0xFF#8 ^^^ BitVec.ofNat 8 slot.val))
  ∧ (∀ (slot : SlotId) (data : List Byte), publishCells slot data
      = headerCell data.length false :: data ++ [crc8 slot (headerCell data.length false :: data)])
  ∧ (∀ t : Transaction,
      let begun := t.kind = .contended → t.tag.isSome
      (t.awaitsTag = true ↔ ¬ begun)
      ∧ (t.awaitsHeader = true ↔ begun ∧ t.header = none)
      ∧ (t.awaitsData = true ↔ begun ∧ ∃ h, t.header = some h ∧ t.data.length < h.length)
      ∧ (t.awaitsCheck = true ↔ begun ∧ ∃ h, t.header = some h ∧ h.length ≤ t.data.length)
      ∧ (t.header = none → t.cellIndex = if t.tag = none then 1 else 2)
      ∧ (∀ h, t.header = some h →
          t.cellIndex = (if t.kind = .contended then 3 else 2) + t.data.length
          ∧ (t.tag = none → t.responseCrc = crc8 t.slot (headerCell h.length h.attention :: t.data))
          ∧ ∀ n, t.tag = some n →
              t.responseCrc = crc8 t.slot (numberCell n.toNat :: headerCell h.length h.attention :: t.data)))
  ∧ (∀ n m : Nat, ((LengthRule.exact n).admits m = true ↔ m = n) ∧ ((LengthRule.upTo n).admits m = true ↔ m ≤ n))
  ∧ ∀ (s : State) (l : LaneId) (t : Transaction) (cell : Samples 9) (v : Byte), (s.lane l).transaction = some t →
      t.phase = .receive → cell.levels (s.lane l).config.sampleFilter = 1#1 ++ v → (s.lane l).line.fits (1#1 ++ v) →
      let L := s.lane l
      let line : Nat → Nat → LineState := fun index bit =>
        { L.line with
          dominantRun := 0, recessiveRun := ((cellLevels v).reverse.takeWhile id).length, position := some (index, bit), waited := 0, cell := none }
      (∀ n : BitVec 5, t.awaitsTag → v = numberCell n.toNat → n ≠ 0 →
        exec (.tagCellReceived l cell) s = .next (s.setLane l { L with
          transaction := some { t with tag := some n }, line := line 2 0 }))
      ∧ (∀ length attention rule, t.awaitsHeader → v = headerCell length attention → length ≤ 12 →
          (s.slot ⟨l, t.slot⟩).lengthRule = some rule → rule.admits length = true →
          exec (.headerCellReceived l cell) s = .next (s.setLane l { L with
            transaction := some { t with header := some { length, attention } }, line := line (t.cellIndex + 1) 0 }))
      ∧ (t.awaitsData → exec (.dataCellReceived l cell) s = .next (s.setLane l { L with
          transaction := some { t with data := t.data ++ [v] }, line := line (t.cellIndex + 1) 0 }))
      ∧ (t.awaitsCheck → t.kind = .contended → exec (.checkCellReceived l cell) s = .next (s.setLane l { L with
          transaction := some { t with phase := .window, checkMatched := v == t.responseCrc }, line := line t.cellIndex 9 }))

/-! ## Lane events: the ending of a transaction -/

/-- Every ending counts in the lane counts and the readback-error run, fills an armed capture or counts on a full one where it is faulty,
and owes the drain where its outcome does (R29, R52, R54, R55, R56). The commands that end a transaction, each answering a next state here:
RESPONSE_TIMEOUT, GAP_TIMEOUT, PENDING_WINDOW_END, PUBLISH_COMPLETE, READBACK_ERROR, STUCK_FAULT in GAP, and the tag, header, data and check
cells with an ending cell.
What the command that ends it carries is log entries 19, 27 and 30. -/
def Obligations.EveryEndingSettlesTheAccounts : Prop :=
  ∀ (s : State) (l : LaneId) (c : Instr) (t : Transaction) (o : TxOutcome) (cell bit : Nat), Ends s l c t o cell bit →
    let L := s.lane l
    let faulty := o ≠ .done ∧ o ≠ .noResponse
    ∃ u, exec c s = .next u
      ∧ (u.lane l).counts =
          { good := if o = .done then min (L.counts.good + 1) 65535 else L.counts.good
            silent := if o = .noResponse then min (L.counts.silent + 1) 65535 else L.counts.silent
            faulty := if faulty then min (L.counts.faulty + 1) 65535 else L.counts.faulty }
      ∧ (u.lane l).readbackRun = (if o = .readbackError ∧ L.readbackRun < 2 then L.readbackRun + 1 else 0)
      ∧ (u.lane l).capture =
          (if faulty ∧ L.capture = none then some { outcome := o, slot := t.slot, cell, bit, round := L.round.counter }
            else L.capture)
      ∧ (u.lane l).faultsSince =
          (if faulty ∧ L.capture ≠ none then min (L.faultsSince + 1) 255 else L.faultsSince)
      ∧ (u.lane l).line.drainOwed =
          (L.line.drainOwed || o = .headerError || o = .lengthMismatch || o = .tagError || o = .framingError
            || o = .readbackError)

/-- The reports of an ending are handed over in the order of its stages: SLOT_PRESENCE, SLOT_UPDATE, FAULT_CAPTURED, ONE_SHOT_DONE, and then
those of the lane engine (R9 to R13, R53, R56, R99).
What the command that ends it carries is log entries 19, 27 and 30. -/
def Obligations.EndingReportsFollowTheStages : Prop :=
  ∀ (s : State) (l : LaneId) (c : Instr) (t : Transaction) (o : TxOutcome) (cell bit : Nat) (followUp : Bool),
    Ends s l c t o cell bit → (followUp = true ↔ FollowsUp t o) →
    ∃ u, exec c s = .next u ∧ ReportedFirst l s u (endingReports s l t o cell bit followUp)

/-- The record of a polled slot after an ending: DONE is accepted with the miss count 0 and PRESENT, NO_RESPONSE counts as a miss and makes
the slot ABSENT at its limit, a faulty outcome leaves both; on an ABSENT slot the skip count restarts. The record is so as the ending leaves
it; where the lane is RUNNING and neither follows up nor faults, the choice of the next transaction is made from that record (R8, R9, R12,
R13, R14).
What the command that ends it carries is log entries 19, 27 and 30. -/
def Obligations.PolledSlotsTrackTheirResponder : Prop :=
  ∀ (s : State) (l : LaneId) (c : Instr) (t : Transaction) (o : TxOutcome) (cell bit : Nat) (r : PolledRec),
    Ends s l c t o cell bit → s.slot ⟨l, t.slot⟩ = .polled r →
    let misses := min (r.missCount + 1) 15
    let expected : PolledRec :=
      if o = .done then
        { r with
          lastOutcome := some o, data := some t.data, attention := (t.header.map Header.attention).getD false
          seq := r.seq + 1, missCount := 0, presence := .present, skipCount := 0 }
      else if o = .noResponse then
        if r.presence = .present ∧ misses < r.absenceLimit then { r with lastOutcome := some o, missCount := misses }
        else { r with lastOutcome := some o, missCount := misses, presence := .absent, skipCount := 0 }
      else { r with lastOutcome := some o, skipCount := if r.presence = .absent then 0 else r.skipCount }
    let L := s.lane l
    let stays := L.condition ≠ .running ∨ FollowsUp t o ∨ o = .lineStuck ∨ (o = .readbackError ∧ 2 ≤ L.readbackRun)
    ∃ u, exec c s = .next u
      ∧ (stays → u.slot ⟨l, t.slot⟩ = .polled expected)
      ∧ (¬ stays → ∃ v, u = choose l v ∧ v.slot ⟨l, t.slot⟩ = .polled expected ∧ (v.lane l).transaction = none)

/-- The record of a contended slot after an ending: DONE is accepted with its tag, and backlog follows the table of R16 after every outcome.
Of a published slot, the sleep slot too, only the last outcome changes (R8, R9, R15, R16). That the table holds for a follow-up without a
response too, beside the words of R59, is the model's reading (log entry 28).
What the command that ends it carries is log entries 19, 27 and 30. -/
def Obligations.ContendedAndPublishedEndings : Prop :=
  ∀ (s : State) (l : LaneId) (c : Instr) (t : Transaction) (o : TxOutcome) (cell bit : Nat) (followUp : Bool),
    Ends s l c t o cell bit → (followUp = true ↔ FollowsUp t o) →
    ∃ u, exec c s = .next u
      ∧ (∀ r, s.slot ⟨l, t.slot⟩ = .contended r →
          let backlog := backlogAfter r.backlog o t.pendingResult followUp
          u.slot ⟨l, t.slot⟩ = .contended
            (if o = .done then
              { r with
                lastOutcome := some o, backlog, data := some t.data, lastTag := t.tag, seq := r.seq + 1
                attention := (t.header.map Header.attention).getD false }
            else { r with lastOutcome := some o, backlog }))
      ∧ (∀ p, s.slot ⟨l, t.slot⟩ = .published p → u.slot ⟨l, t.slot⟩ = .published { p with lastOutcome := some o })

/-- An update accepted feeds every route of its source: a copy replaces the destination's data and increments its sequence, always under
ALWAYS, and under ON_CHANGE where the data differs; no other ending and no other record changes, but for skipped entries (R111, R112).
What the command that ends it carries is log entries 19, 27 and 30. -/
def Obligations.AcceptedUpdatesFeedTheirRoutes : Prop :=
  ∀ (s : State) (l : LaneId) (c : Instr) (t : Transaction) (o : TxOutcome) (cell bit : Nat), Ends s l c t o cell bit →
    (∀ i j x y, s.route i = some x → s.route j = some y → x.dst = y.dst → i = j) →
    let accepted := o = .done ∧ ((∃ r, s.slot ⟨l, t.slot⟩ = .polled r) ∨ ∃ r, s.slot ⟨l, t.slot⟩ = .contended r)
    ∃ u, exec c s = .next u
      ∧ (∀ i x p, accepted → s.route i = some x → x.src = ⟨l, t.slot⟩ → s.slot x.dst = .published p →
          u.slot x.dst = .published
            (if x.mode = .always ∨ p.data ≠ some t.data then { p with data := some t.data, seq := p.seq + 1 } else p))
      ∧ (∀ q : SlotRef, q ≠ ⟨l, t.slot⟩ → (accepted → ∀ i x, s.route i = some x → x.src = ⟨l, t.slot⟩ → x.dst ≠ q) →
          SkippedOnly l q (s.slot q) (u.slot q))

/-- A follow-up decided yes begins at once, on the same slot with the allowance less one, ahead of every one-shot and entry; the round, its
position and pause, the streak, the queue and the schedules stay, a RUNNING lane's round has worked, since a transaction has ended in it, and
nothing is reported behind the ending (R58, R59, R60, R78). That an empty active schedule, which has no round, leaves round worked as it was
is the model's reading (log entry 10).
What the command that ends it carries is log entries 19, 27 and 30. -/
def Obligations.FollowUpsBeginAtOnce : Prop :=
  ∀ (s : State) (l : LaneId) (c : Instr) (t : Transaction) (o : TxOutcome) (cell bit : Nat), Ends s l c t o cell bit →
    FollowsUp t o →
    let L := s.lane l
    ∃ u, exec c s = .next u
      ∧ (u.lane l).transaction = some
          { source := .followUp, oneShot := none, slot := t.slot, kind := .contended, phase := .gap
            allowance := t.allowance.map (· - 1), followUpsForbidden := false, sendData := none, tag := none, header := none
            data := [], pendingResult := .notSampled, checkMatched := false }
      ∧ (u.lane l).condition = L.condition ∧ (u.lane l).oneShots = L.oneShots ∧ (u.lane l).schedules = L.schedules
      ∧ (u.lane l).round = { L.round with worked := (u.lane l).round.worked }
      ∧ (L.condition = .running → L.schedules.active ≠ [] → (u.lane l).round.worked = true)
      ∧ (L.schedules.active = [] → (u.lane l).round.worked = L.round.worked)
      ∧ Reported s u (endingReports s l t o cell bit true)

/-- Where an ending decides no follow-up, its last stage acts on the lane's condition: the third READBACK_ERROR in a row and LINE_STUCK take
it to FAULTED, HALTING goes to HALTED with the swap, SLEEP_PENDING begins a sleep call or, after one that ended DONE, waits for the release,
and RUNNING chooses with its round worked, or with an empty active schedule after the swap, until a transaction is in progress or nothing
may run (R53, R78, R82, R83, R84, R87, R117, R119, R125, R126). What an empty active schedule leaves of the round state is the model's
reading (log entry 10).
What the command that ends it carries is log entries 19, 27 and 30. -/
def Obligations.EndingsActOnTheCondition : Prop :=
  ∀ (s : State) (l : LaneId) (c : Instr) (t : Transaction) (o : TxOutcome) (cell bit : Nat), Ends s l c t o cell bit →
    ¬ FollowsUp t o →
    let L := s.lane l
    let faults := o = .lineStuck ∨ o = .readbackError ∧ 2 ≤ L.readbackRun
    let reports := endingReports s l t o cell bit false
    ∃ u, exec c s = .next u
      ∧ (faults →
          let M := u.lane l
          M.condition = .faulted ∧ M.transaction = none ∧ M.oneShots = [] ∧ M.recoveryArmed = false
            ∧ M.resume = (match L.condition with
                | .running => .running
                | .halted | .halting | .sleeping => .halted
                | .sleepPending | .waking | .faulted => L.resume)
            ∧ M.line.driving = false ∧ M.line.recessiveRun = 0
            ∧ M.round = (if L.condition = .running ∨ L.condition = .halting then L.round.abandoned else L.round)
            ∧ Reported s u (reports
                ++ .laneChange l (if L.condition = .halting then .running else L.condition) .faulted
                    (if o = .lineStuck then .stuck else .readback)
                  :: L.completions l .laneFault))
      ∧ (¬ faults → L.condition = .halting →
          (u.lane l).condition = .halted ∧ (u.lane l).transaction = none ∧ (u.lane l).oneShots = L.oneShots
            ∧ (u.lane l).schedules = L.swapped ∧ (u.lane l).round = L.round.abandoned
            ∧ Reported s u (reports ++ .laneChange l .running .halted .request :: L.swapReports l))
      ∧ (¬ faults → L.condition = .sleepPending →
          (u.lane l).condition = .sleepPending ∧ Reported s u reports
            ∧ (u.lane l).transaction = (if t.source = .sleepCall ∧ o = .done then none else some
                { source := .sleepCall, oneShot := none, slot := 0, kind := .published, phase := .gap, allowance := none
                  followUpsForbidden := false, sendData := some [0x5A], tag := none, header := none, data := []
                  pendingResult := .notSampled, checkMatched := false }))
      ∧ (¬ faults → L.condition = .running →
          (∃ v, u = choose l v ∧ (v.lane l).condition = .running ∧ (v.lane l).transaction = none
            ∧ (v.lane l).oneShots = L.oneShots
            ∧ (L.schedules.active ≠ [] → (v.lane l).schedules = L.schedules
                ∧ (v.lane l).round = { L.round with worked := true } ∧ Reported s v reports)
            ∧ (L.schedules.active = [] → (v.lane l).schedules = L.swapped
                ∧ (v.lane l).round
                  = { L.round with position := if L.schedules.staged.isSome then 0 else L.round.position }
                ∧ Reported s v (reports ++ L.swapReports l)))
          ∧ ((u.lane l).transaction.isSome ∨ (u.lane l).oneShots = []
              ∧ ((u.lane l).schedules.active = [] ∨ (u.lane l).round.pause.isSome)))

/-! ## Lane events: the choice -/

/-- The choice of a lane between transactions: the oldest one-shot while the streak is below 2 or no entry may run; otherwise the entry at
the round position, which begins, or is passed with the position moved on where it is not due, is skipped, or has no data to send; with no
entry left the round ends and the choice is made again; otherwise nothing begins. The end of a pause is such a choice (R14, R19, R79 to R82,
R85, R87 to R90). That no pause follows a round that ends onto an empty schedule, and that a streak counts with one, are the model's readings
(log entries 9 and 10), and so are the runs that the end of a pause leaves, whose command stands for the rest of its bit times (log entries
1 and 15), and the receive position of the wait before a call (log entry 14). -/
def Obligations.TheChoiceGoesInOrder : Prop :=
  (∀ (s : State) (l : LaneId) (n : Nat), (s.lane l).condition = .running → (s.lane l).round.pause = some n →
    let L := s.lane l
    exec (.pauseComplete l) s = .next (choose l (s.setLane l { L with
      line := { L.line with
        dominantRun := 0, recessiveRun := min (L.line.recessiveRun + (L.config.turnaroundGap - n)) 255 }
      round := { L.round with pause := none } })))
  ∧ ∀ (s : State) (l : LaneId), (s.lane l).transaction = none →
      let L := s.lane l
      let begins : Transaction → Lane → State → State := fun t M u => u.setLane l
        { M with transaction := some t, line := { M.line with position := some (0, 0) } }
      let moved : RoundState := { L.round with position := L.round.position + 1 }
      (∀ o rest kind, L.oneShots = o :: rest →
        (match s.slot ⟨l, o.slot⟩ with
          | .undefined => False
          | .polled _ => kind = CallKind.polled
          | .contended _ => kind = .contended
          | .published _ => kind = .published) →
        (L.round.streak < 2 ∨ L.round.pause.isSome ∨ L.schedules.active.length ≤ L.round.position) →
        choose l s = begins
          { source := .oneShot, oneShot := some (o.handle, o.kind), slot := o.slot, kind, phase := .gap, allowance := none
            followUpsForbidden := false, sendData := o.data, tag := none, header := none, data := []
            pendingResult := .notSampled, checkMatched := false }
          { L with oneShots := rest, round := { L.round with pause := none, streak := min (L.round.streak + 1) 2 } } s)
      ∧ (∀ e, (L.oneShots = [] ∨ 2 ≤ L.round.streak) → L.round.pause = none →
          L.schedules.active[L.round.position]? = some e →
          let due := L.round.counter.toNat % 2 ^ e.exponent.val = e.phase
          let passes := s.setLane l { L with round := moved }
          let called : CallKind → Option Nat → State := fun kind allowance => begins
            { source := .scheduled, oneShot := none, slot := e.slot, kind, phase := .gap, allowance
              followUpsForbidden := false, sendData := none, tag := none, header := none, data := []
              pendingResult := .notSampled, checkMatched := false }
            { L with round := { moved with streak := 0 } } s
          (¬ due → choose l s = choose l passes)
          ∧ (∀ r, due → s.slot ⟨l, e.slot⟩ = .polled r →
              (r.presence = .present ∨ L.config.probeInterval ≤ r.skipCount + 1) → choose l s = called .polled none)
          ∧ (∀ r, due → s.slot ⟨l, e.slot⟩ = .polled r → r.presence = .absent →
              r.skipCount + 1 < L.config.probeInterval →
              choose l s
                = choose l (passes.setSlot ⟨l, e.slot⟩ (.polled { r with skipCount := r.skipCount + 1 })))
          ∧ (∀ r, due → s.slot ⟨l, e.slot⟩ = .contended r → choose l s = called .contended (some r.budget))
          ∧ (∀ p, due → s.slot ⟨l, e.slot⟩ = .published p → p.data ≠ none → choose l s = called .published none)
          ∧ (∀ p, due → s.slot ⟨l, e.slot⟩ = .published p → p.data = none → choose l s = choose l passes))
      ∧ (L.oneShots = [] → L.round.pause = none → L.schedules.active ≠ [] →
          L.schedules.active.length ≤ L.round.position →
          choose l s = choose l
            { s.setLane l { L with
                schedules := L.swapped
                round :=
                  { counter := L.round.counter + 1, position := 0, worked := false
                    pause := if L.round.worked ∨ L.swapped.active = [] then none else some 0, streak := L.round.streak } } with
              reports := (Lane.swapReports { L with round := { L.round with counter := L.round.counter + 1 } } l).foldl
                ReportQueue.handOver s.reports })
      ∧ (L.oneShots = [] → (L.schedules.active = [] ∨ L.round.pause.isSome) → choose l s = s)

/-! ## Lane events: the line and the condition -/

/-- A stuck fault on a HALTED, RUNNING, SLEEPING or WAKING lane with no transaction in progress and no wake pulse takes it to FAULTED at once,
with the resume condition of R126 and every queued one-shot completed with LANE_FAULT; in FAULTED only the dominant run is set (R43, R103,
R125, R126). The command stands for the bit time that brings the run to 30 (log entry 17); in the sleep release wait an earlier bit time
wakes the lane (log entry 16). -/
def Obligations.StuckLinesFault : Prop :=
  ∀ (s : State) (l : LaneId), (s.lane l).transaction = none → (s.lane l).line.driving = false →
    let L := s.lane l
    let line := { L.line with dominantRun := 30, recessiveRun := 0 }
    (L.condition = .faulted → exec (.stuckFault l) s = .next (s.setLane l { L with line }))
    ∧ (L.condition = .halted ∨ L.condition = .running ∨ L.condition = .sleeping ∨ L.condition = .waking →
        exec (.stuckFault l) s = .next
          { s.setLane l
              { L with
                condition := .faulted, line, recoveryArmed := false, readbackRun := 0, oneShots := []
                resume := if L.condition = .running then .running else if L.condition = .waking then L.resume else .halted
                round := if L.condition = .running then L.round.abandoned else L.round } with
            reports := (.laneChange l L.condition .faulted .stuck :: L.completions l .laneFault).foldl
              ReportQueue.handOver s.reports })

/-- The end of the sleep release wait takes the lane to SLEEPING with its queued one-shots completed with LANE_ASLEEP, and a dominant bit
time in it to WAKING; a responder's run of 3 to 29 bit times wakes a SLEEPING lane and a shorter one does not; the end of a wake pulse
releases the line (R26, R44, R102, R120, R122, R123). The runs after each event, the operand `run` and the count of a wait's bit times are the
model's choices (log entries 15, 18 and 30). -/
def Obligations.LanesSleepAndWake : Prop :=
  ∀ (s : State) (l : LaneId),
    let L := s.lane l
    (L.condition = .sleepPending → L.transaction = none →
      exec (.sleepReleaseComplete l) s = .next
        { s.setLane l { L with
            condition := .sleeping, oneShots := []
            line := { L.line with
              dominantRun := 0
              recessiveRun := min (L.line.recessiveRun + (L.config.turnaroundGap - L.line.waited)) 255, waited := 0 } } with
          reports := (.laneChange l .sleepPending .sleeping .request :: L.completions l .laneAsleep).foldl
            ReportQueue.handOver s.reports }
      ∧ exec (.sleepReleaseWake l) s = .next
          { s.setLane l { L with
              condition := .waking, line := { L.line with dominantRun := 1, recessiveRun := 0, waited := 0 } } with
            reports := s.reports.handOver (.laneChange l .sleepPending .waking .busWake) })
    ∧ (∀ run : Nat, L.condition = .sleeping →
        let line := { L.line with dominantRun := 0, recessiveRun := 1 }
        (run = 1 ∨ run = 2 → exec (.responderWake l run) s = .next (s.setLane l { L with line }))
        ∧ (3 ≤ run → run < 30 → exec (.responderWake l run) s = .next
            { s.setLane l { L with condition := .waking, line } with
              reports := s.reports.handOver (.laneChange l .sleeping .waking .busWake) }))
    ∧ (L.condition = .waking → L.line.driving = true →
        exec (.wakePulseEnd l) s = .next (s.setLane l { L with
          line := { L.line with driving := false, dominantRun := 0, recessiveRun := 0, waited := 0 } }))

/-- The wake settle takes the lane from WAKING to its resume condition, and the recovery quiet takes it there from FAULTED where
auto-recover is on or recovery is armed, with drain owed discharged; into RUNNING the round begins again and the lane chooses, and a staged
schedule is swapped in into either; otherwise the quiet is only counted (R83, R84, R124, R127, R128, R129). The runs, and the round position
after a swap in FAULTED or WAKING, are the model's readings (log entries 15 and 26). -/
def Obligations.SettledAndRecoveredLanesResume : Prop :=
  ∀ (s : State) (l : LaneId),
    let L := s.lane l
    let resumes : Lane → Condition → Cause → State := fun M old cause =>
      match L.resume with
      | .running =>
        choose l { s.setLane l { M with condition := .running, schedules := L.swapped, round := L.round.abandoned } with
          reports := (.laneChange l old .running cause :: L.swapReports l).foldl ReportQueue.handOver s.reports }
      | .halted =>
        { s.setLane l { M with
            condition := .halted, schedules := L.swapped
            round := { L.round with position := if L.schedules.staged.isSome then 0 else L.round.position } } with
          reports := (.laneChange l old .halted cause :: L.swapReports l).foldl ReportQueue.handOver s.reports }
    (L.condition = .waking → L.line.driving = false →
      exec (.wakeSettleComplete l) s = .next (resumes
        { L with
          line := { L.line with dominantRun := 0, recessiveRun := min (max L.line.recessiveRun L.config.wakeSettle) 255 } }
        .waking .settled))
    ∧ (L.condition = .faulted →
        let line := { L.line with dominantRun := 0, recessiveRun := min (max L.line.recessiveRun 128) 255 }
        ((L.config.autoRecover = true ∨ L.recoveryArmed = true) →
          exec (.recoveryQuietComplete l) s = .next (resumes
            { L with line := { line with drainOwed := false }, recoveryArmed := false } .faulted .recovered))
        ∧ (L.config.autoRecover = false → L.recoveryArmed = false →
            exec (.recoveryQuietComplete l) s = .next (s.setLane l { L with line })))

/-- A bit time whose samples read dominant returns the recessive run and a running pause to 0 and lengthens the dominant run; the thirtieth in a
row raises the stuck fault, and a run that stands at 30 raises no second one. One that reads recessive counts the recessive run on and ends
the dominant one, which wakes a SLEEPING lane as a responder's run does. A dominant one in the sleep release wait wakes the lane. Within a
transaction a bit that the engine sends is read back: as sent it takes the engine to the next bit, at its place and with LTXn low for a
dominant one alone, or completes the call or the publish, and otherwise it is the readback error; a bit of a response is the start bit, a
bit of the cell being received, or the pending window. The bits of a wake pulse are neither compared nor counted in the runs (R25, R26, R27,
R32, R33, R39, R41, R42, R43, R81, R120, R123). That the row carries samples which may read recessive, the receive position, how the sent
recessive bits count, and the counts of bits and of waits are the model's choices (log entries 14, 15, 17 and 30). -/
def Obligations.DominantBitsRestartTheWaits : Prop :=
  ∀ (s : State) (l : LaneId) (bit : Samples 1),
    let L := s.lane l
    let level := bit.levels L.config.sampleFilter
    let c := Instr.dominantBitTime l bit
    let counted : LineState → State := fun line => s.setLane l { L with
      line, round := { L.round with
        pause := L.round.pause.map fun n => if level = 0#1 then 0 else min (n + 1) L.config.turnaroundGap } }
    let recessiveLine := { L.line with dominantRun := 0, recessiveRun := min (L.line.recessiveRun + 1) 255 }
    let idle := L.transaction = none ∧ L.line.driving = false
    let gap := ∃ t, L.transaction = some t ∧ t.phase = .gap
    (L.transaction = none → L.line.driving = true →
      exec c s = .next (s.setLane l { L with line := { L.line with waited := min (L.line.waited + 1) 255 } }))
    ∧ (idle → L.condition = .sleepPending → level = 0#1 → exec c s = exec (.sleepReleaseWake l) s)
    ∧ (idle → L.condition = .sleepPending → level = 1#1 →
        exec c s = .next (counted { recessiveLine with waited := min (L.line.waited + 1) 255 }))
    ∧ (gap ∨ idle ∧ L.condition ≠ .sleepPending → level = 0#1 →
        (L.line.dominantRun = 29 → exec c s = exec (.stuckFault l) s)
        ∧ (L.line.dominantRun ≠ 29 → exec c s = .next (counted
            { L.line with dominantRun := min (L.line.dominantRun + 1) 30, recessiveRun := 0 })))
    ∧ (gap ∨ idle ∧ L.condition ≠ .sleepPending ∧ L.condition ≠ .sleeping → level = 1#1 →
        exec c s = .next (counted recessiveLine))
    ∧ (idle → L.condition = .sleeping → level = 1#1 →
        (1 ≤ L.line.dominantRun → L.line.dominantRun < 30 → exec c s = exec (.responderWake l L.line.dominantRun) s)
        ∧ (L.line.dominantRun = 0 ∨ 30 ≤ L.line.dominantRun → exec c s = .next (counted recessiveLine)))
    ∧ (∀ t, L.transaction = some t →
        (∀ levels recessive,
          (t.phase = .call ∧ levels = List.replicate 12 false ++ [true] ++ cellLevels (numberCell t.slot.val)
            ∨ t.phase = .send ∧ t.kind = .published
              ∧ levels = (publishCells t.slot (t.sendData.getD [])).flatMap cellLevels) →
          levels[L.line.sent]? = some recessive →
          ((level = 0#1 ↔ recessive = true) → exec c s = exec (.readbackError l 0 bit) s)
          ∧ ((level = 1#1 ↔ recessive = true) →
              (∀ next, levels[L.line.sent + 1]? = some next →
                let i := L.line.sent + 1
                exec c s = .next (s.setLane l { L with
                  line := { L.line with
                    driving := !next, sent := i
                    position := some (if t.phase = .call then (0, i - 13) else (1 + i / 10, i % 10))
                    dominantRun := if next ∧ ¬ recessive then L.line.dominantRun else 0
                    recessiveRun :=
                      if next then if recessive then min (L.line.recessiveRun + 1) 255 else L.line.recessiveRun else 0
                    waited := if next then L.line.waited else 0 } }))
              ∧ (levels.length = L.line.sent + 1 →
                  exec c s = exec (if t.phase = .call then .callComplete l else .publishComplete l) s)))
        ∧ ((t.phase = .await ∨ t.phase = .receive ∧ L.line.cell = none) →
            (level = 0#1 → exec c s = exec (.responseStartBit l bit) s)
            ∧ (level = 1#1 → exec c s = .next (counted { recessiveLine with waited := min (L.line.waited + 1) 255 })))
        ∧ (∀ bits, t.phase = .receive → L.line.cell = some bits →
            (bits.length < 8 → exec c s = .next (s.setLane l { L with
              line := { L.line with
                dominantRun := if level = 0#1 then min (L.line.dominantRun + 1) 30 else 0
                recessiveRun := if level = 0#1 then 0 else min (L.line.recessiveRun + 1) 255
                position := some (t.cellIndex, bits.length + 1), cell := some (bits ++ [decide (level = 1#1)]) } }))
            ∧ (bits.length = 8 → ∀ cell : Samples 9,
                (List.range 9).map (cell.levels L.config.sampleFilter).getLsbD = bits ++ [decide (level = 1#1)] →
                (t.awaitsTag → exec c s = exec (.tagCellReceived l cell) s)
                ∧ (t.awaitsHeader → exec c s = exec (.headerCellReceived l cell) s)
                ∧ (t.awaitsData → exec c s = exec (.dataCellReceived l cell) s)
                ∧ (t.awaitsCheck → exec c s = exec (.checkCellReceived l cell) s)))
        ∧ (t.phase = .window → exec c s = exec (.pendingWindowEnd l bit) s))

/-- An event of one lane leaves every other lane engine, the routes, the host link, the handles, what is in flight and the waiting commands
as they were, and every slot record of another lane that is no route destination; its own lane keeps its configuration and its builder (R24,
R71, R132). The waiting commands are the model's own (log entry 7). -/
def Obligations.LaneEventsStayOnTheirLane : Prop :=
  ∀ (s t : State) (c : Instr) (l : LaneId), c.lane = some l → exec c s = .next t →
    OnlyLane l s t ∧ ∀ r : SlotRef, r.lane ≠ l → ¬ RouteFed s r → t.slot r = s.slot r

/-! ## The Report Queue and the frame -/

/-- A SLOT_UPDATE merges into the pending one of its lane and slot in place, even in a full queue; any other record is appended while the
queue holds fewer than 48 records, and is dropped and counted with its kind where it is full (R137, R138, R140). -/
def Obligations.ReportsMergeAppendOrDrop : Prop :=
  ∀ q : ReportQueue,
    (∀ ref u old before after, q.unsent = before ++ .slotUpdate ref old :: after → ref ∉ updateRefs before →
      q.handOver (.slotUpdate ref u)
        = { q with unsent := before ++ .slotUpdate ref { u with merged := min (old.merged + u.merged + 1) 255 } :: after })
    ∧ ∀ r : Report, (∀ ref u, r = .slotUpdate ref u → ref ∉ updateRefs q.unsent) →
        (q.inFlight.length + q.unsent.length < 48 → q.handOver r = { q with unsent := q.unsent ++ [r] })
        ∧ (48 ≤ q.inFlight.length + q.unsent.length →
            q.handOver r = { q with
              lostCount := min (q.lostCount + 1) 65535, lostKinds := q.lostKinds ||| (1 <<< (r.kindCode - 1)) })

/-- Every frame that the link can carry is the start byte, the length, kind, tag, body and CRC-16, high byte first, and is read back from its
bytes as the frame it is; each byte is ten levels, a low start bit, the data bits, least significant first, and a high stop bit. The CRC-16
divides by 0x1021 from 0xFFFF, each byte most significant bit first (R152). The codes of the tables are those of chapter 11 (R196). READY, every reply and every report are sent as
the frame of their layout: kind 0x82 with the cause and the revision, kind 0x80 with the request's tag, its code, the status and the fields,
and kind 0x81 with tag 0, the report kind, the sequence number and the fields of the kind (R159, R164, R196). The revision is a free value
(log entry 2). -/
def Obligations.FramesAreReadBack : Prop :=
  (∀ bytes : List Byte, crc16 bytes
      = (bytes.flatMap fun b => (List.range 8).map fun i => b.getLsbD (7 - i)).foldl
          (fun (crc : BitVec 16) bit => if crc.msb = bit then crc <<< 1 else (crc <<< 1) ^^^ 0x1021#16) 0xFFFF#16)
  ∧ (∀ crc : BitVec 16, crcBytes crc = [crc.extractLsb' 8 8, crc.extractLsb' 0 8])
  ∧ (∀ f : Frame, f.body.length ≤ 64 → parseFrame f.tail = some f ∧ crcFails f.tail = false
    ∧ (let covered := byte (f.body.length + 2) :: f.kind :: f.tag :: f.body; f.tail = covered ++ crcBytes (crc16 covered))
    ∧ readBytes (f.tail.map fun b => 1#1 ++ b) = some f.tail
    ∧ f.bits = (0xC3 :: f.tail).flatMap fun b => false :: (List.range 8).map b.getLsbD ++ [true])
  ∧ (∀ cause : ResetCause, (OutFrame.ready cause).frame =
      ⟨0x82, 0, [match cause with | .power => 1 | .pin => 2 | .soft => 3, Config.revision]⟩)
  ∧ (∀ r : Reply, (OutFrame.reply r).frame = ⟨0x80, r.tag, r.code :: r.status.code :: r.fields⟩)
  ∧ [Status.ok, .unknownRequest, .badLength, .badValue, .badLane, .badState, .undefinedSlot, .wrongKind, .inUse, .noSpace,
      .queueFull, .routed, .unknownHandle, .tooLate, .badAck, .notOpen].map Status.code
    = [0x00, 0x01, 0x02, 0x03, 0x04, 0x05, 0x06, 0x07, 0x08, 0x09, 0x0A, 0x0B, 0x0C, 0x0D, 0x0E, 0x0F]
  ∧ [TxOutcome.done, .noResponse, .headerError, .lengthMismatch, .tagError, .checkError, .framingError, .gapTimeout, .readbackError,
      .lineStuck].map TxOutcome.code = [0x00, 0x01, 0x02, 0x03, 0x04, 0x05, 0x06, 0x07, 0x08, 0x09]
  ∧ (∀ o : TxOutcome, (Completion.ended o).code = o.code)
  ∧ [Completion.withdrawn, .laneAsleep, .laneFault].map Completion.code = [0x10, 0x11, 0x12]
  ∧ [Condition.halted, .running, .halting, .sleepPending, .sleeping, .waking, .faulted].map Condition.code = [0, 1, 2, 3, 4, 5, 6]
  ∧ [Cause.request, .busWake, .stuck, .readback, .recovered, .settled].map Cause.code = [0, 1, 2, 3, 4, 5]
  ∧ [ReportMode.silent, .onChange, .every].map ReportMode.code = [0, 1, 2]
  ∧ [Presence.present, .absent].map Presence.code = [0, 1] ∧ [RouteMode.always, .onChange].map RouteMode.code = [0, 1]
  ∧ (∀ n : Nat, (LengthRule.exact n).form = 0 ∧ (LengthRule.upTo n).form = 1 ∧ (LengthRule.exact n).bound = n
      ∧ (LengthRule.upTo n).bound = n)
  ∧ ∀ seq : Nat,
      let sends : Report → Byte → List Byte → Prop := fun r kind fields =>
        (OutFrame.report { seq, report := r }).frame = ⟨0x81, 0, kind :: byte seq :: byte (seq / 256) :: fields⟩
      let tagByte : Option (BitVec 5) → Byte := fun tag => match tag with
        | none => 0
        | some n => byte n.toNat
      (∀ (ref : SlotRef) (u : Update), sends (.slotUpdate ref u) 1
        ([byte ref.lane.val, byte ref.slot.val, u.seq, tagByte u.tag,
            byte ((if u.attention then 1 else 0) + if u.backlog then 2 else 0), byte u.merged, byte u.data.length] ++ u.data))
      ∧ (∀ (ref : SlotRef) (p : Presence), sends (.slotPresence ref p) 2
          [byte ref.lane.val, byte ref.slot.val, if p = .present then 0 else 1])
      ∧ (∀ (l : LaneId) (old new : Condition) (cause : Cause), sends (.laneChange l old new cause) 3
          [byte l.val, old.code, new.code, cause.code])
      ∧ (∀ (l : LaneId) (k : CaptureRecord), sends (.faultCaptured l k) 4
          [byte l.val, k.outcome.code, byte k.slot.val, byte k.cell, byte k.bit, byte k.round.toNat,
            byte (k.round.toNat / 256)])
      ∧ (∀ (l : LaneId) (handle : Nat) (outcome : Completion) (tag : Option (BitVec 5)) (data : Option (List Byte)),
          sends (.oneShotDone l handle outcome tag data) 5
            ([byte l.val, byte handle, byte (handle / 256), outcome.code, tagByte tag] ++ match data with
              | none => [0xFF]
              | some d => byte d.length :: d))
      ∧ (∀ (l : LaneId) (round : BitVec 16), sends (.scheduleSwapped l round) 6
          [byte l.val, byte round.toNat, byte (round.toNat / 256)])
      ∧ (∀ begins : Bool, sends (.hostSilence begins) 7 [if begins then 1 else 0])
      ∧ (∀ (count : Nat) (kinds : Byte), sends (.reportsLost count kinds) 8 [byte count, byte (count / 256), kinds])

/-! ## Invariants -/

/-- The bounds and the numbering of the Report Queue, the merged counts among them, and the bounds of the Host Link Interface hold after every
step (R136, R138, R143, R156, R159, R160, R167, R168); and HATNn is low while a record is pending with no credit or READY waits, and high
otherwise (R149). HTX carries the bits of the frame in transmission, and stays high while there is none (R152, R162). While a power-on reset or
a pin reset lasts HATNn is low, HTX and every LTXn high and every LENn off (R27, R149, R163). That a reset is one command, without that time in
the state, and that the bit of a frame is an operand of the pins, are the model's choices (log entries 20, 22 and 23). -/
def Obligations.TheHostLinkStaysInBounds : Prop :=
  (∀ s t : State, QueueWf s.reports s.hli.credit s.hli.nextReportSeq → LinkWf s.hli → step s = .next t →
    QueueWf t.reports t.hli.credit t.hli.nextReportSeq ∧ LinkWf t.hli)
  ∧ (∀ (s : State) (bit : Nat),
      ((s.pins bit).hatn = false ↔ s.reports.unsent ≠ [] ∧ s.hli.credit = 0 ∨ s.hli.ready ≠ none)
      ∧ (s.hli.transmitting = none → (s.pins bit).htx = true)
      ∧ ∀ f : OutFrame, s.hli.transmitting = some f →
          (∀ high, f.frame.bits[bit]? = some high → (s.pins bit).htx = high)
          ∧ (f.frame.bits.length ≤ bit → (s.pins bit).htx = true))
  ∧ Pins.inReset.hatn = false ∧ Pins.inReset.htx = true
  ∧ ∀ l : LaneId, Pins.inReset.ltx[l.val] = true ∧ Pins.inReset.len[l.val] = false

/-- What every lane engine holds in each condition holds after every step (R26, R42, R46, R55, R78, R92, R101, R115, R132), and while it holds
LENn is off in SLEEPING alone and LTXn is low for a wake pulse in WAKING and for the dominant bits of a call or a publish alone (R27). That no
pause runs with an empty schedule, the receive position, and the counts of bits and of waits, are the model's readings (log entries 9, 14, 15
and 30). -/
def Obligations.LanesHoldWhatTheirConditionAllows : Prop :=
  (∀ s t : State, LanesWf s → step s = .next t → LanesWf t)
  ∧ ∀ (s : State) (l : LaneId) (bit : Nat), LanesWf s →
      let L := s.lane l
      let pins := s.pins bit
      let dominantBit := fun (t : Transaction) (levels : List Bool) => L.transaction = some t ∧ levels[L.line.sent]? = some false
      (pins.len[l.val] = false ↔ L.condition = .sleeping)
      ∧ (pins.ltx[l.val] = false →
          L.transaction = none ∧ L.condition = .waking
          ∨ ∃ t, t.phase = .call
              ∧ dominantBit t (List.replicate 12 false ++ [true] ++ cellLevels (numberCell t.slot.val))
            ∨ t.phase = .send ∧ dominantBit t ((publishCells t.slot (t.sendData.getD [])).flatMap cellLevels))
      ∧ (∀ t, t.phase = .call →
          dominantBit t (List.replicate 12 false ++ [true] ++ cellLevels (numberCell t.slot.val)) →
          pins.ltx[l.val] = false)
      ∧ (∀ t, t.phase = .send → t.kind = .published →
          dominantBit t ((publishCells t.slot (t.sendData.getD [])).flatMap cellLevels) → pins.ltx[l.val] = false)

/-- The records, the sleep slots and everything that names a slot agree after every step, and no step faults (R1 to R6, R22, R46, R72, R92,
R106). The fault that no step raises is the model's own (log entry 21). -/
def Obligations.TablesAgreeAndNothingFaults : Prop :=
  ∀ s : State, LanesWf s → TablesWf s →
    (∀ t, step s = .next t → TablesWf t) ∧ ∀ f, step s ≠ .fault f

/-- The entry pool stays within its places, and the handles held stay distinct and in range, after every step. The places taken are the entries
of the three schedules of every lane, and the handles held those of the one-shots queued and running (R70, R93). -/
def Obligations.PoolAndHandlesStayInBounds : Prop :=
  (∀ s t : State, step s = .next t → (PoolWf s → PoolWf t) ∧ (LanesWf s → HandlesWf s → HandlesWf t))
  ∧ (∀ x : Schedules, x.held = (x.builder.getD [] ++ x.staged.getD [] ++ x.active).length)
  ∧ ∀ (s : State) (handle : Nat), handle ∈ s.handles ↔
      ∃ l, (∃ o ∈ (s.lane l).oneShots, o.handle = handle)
        ∨ ∃ t kind, (s.lane l).transaction = some t ∧ t.oneShot = some (handle, kind)

/-- Every invariant holds at the state after reset (R7, R26, R71, R115, R150). -/
def Obligations.ResetMeetsEveryInvariant : Prop :=
  QueueWf State.reset.reports State.reset.hli.credit State.reset.hli.nextReportSeq ∧ LinkWf State.reset.hli
    ∧ LanesWf State.reset ∧ TablesWf State.reset ∧ PoolWf State.reset ∧ HandlesWf State.reset
end

