-- ==== Sys2Proof/Laws/State.lean ====
section
/-!
SUPPORT. One lemma per field per update of the state: what each named update writes, and what it leaves.
-/

namespace Sys2Proof.Machine

open Sys2Proof

/-! ## Lanes -/

@[simp] theorem State.lane_setLane_self (s : State) (l : LaneId) (L : Lane) : (s.setLane l L).lane l = L := by
  simp [State.lane, State.setLane]

theorem State.lane_setLane_of_ne (s : State) {l m : LaneId} (L : Lane) (h : m ≠ l) : (s.setLane l L).lane m = s.lane m := by
  have h' : l.val ≠ m.val := fun e => h (Fin.ext e.symm)
  simp [State.lane, State.setLane, h']

@[simp] theorem State.lane_onLane_self (s : State) (l : LaneId) (f : Lane → Lane) : (s.onLane l f).lane l = f (s.lane l) := by
  simp [State.onLane]

theorem State.lane_onLane_of_ne (s : State) {l m : LaneId} (f : Lane → Lane) (h : m ≠ l) :
    (s.onLane l f).lane m = s.lane m := s.lane_setLane_of_ne _ h

@[simp] theorem State.setLane_setLane (s : State) (l : LaneId) (A B : Lane) : (s.setLane l A).setLane l B = s.setLane l B := by
  simp [State.setLane]

@[simp] theorem State.setLane_lane (s : State) (l : LaneId) : s.setLane l (s.lane l) = s := by
  simp [State.setLane, State.lane]

/-- A lane after a change of some lane. -/
theorem State.lane_onLane (s : State) (l m : LaneId) (f : Lane → Lane) :
    (s.onLane l f).lane m = if m = l then f (s.lane l) else s.lane m := by
  by_cases h : m = l
  · subst h; simp
  · simp [h, s.lane_onLane_of_ne f h]

@[simp] theorem State.slots_setLane (s : State) (l : LaneId) (L : Lane) : (s.setLane l L).slots = s.slots := rfl
@[simp] theorem State.routes_setLane (s : State) (l : LaneId) (L : Lane) : (s.setLane l L).routes = s.routes := rfl
@[simp] theorem State.nextHandle_setLane (s : State) (l : LaneId) (L : Lane) : (s.setLane l L).nextHandle = s.nextHandle := rfl
@[simp] theorem State.reports_setLane (s : State) (l : LaneId) (L : Lane) : (s.setLane l L).reports = s.reports := rfl
@[simp] theorem State.hli_setLane (s : State) (l : LaneId) (L : Lane) : (s.setLane l L).hli = s.hli := rfl
@[simp] theorem State.pending_setLane (s : State) (l : LaneId) (L : Lane) : (s.setLane l L).pending = s.pending := rfl
@[simp] theorem State.slot_setLane (s : State) (l : LaneId) (L : Lane) (r : SlotRef) : (s.setLane l L).slot r = s.slot r := rfl

@[simp] theorem State.slots_onLane (s : State) (l : LaneId) (f : Lane → Lane) : (s.onLane l f).slots = s.slots := rfl
@[simp] theorem State.routes_onLane (s : State) (l : LaneId) (f : Lane → Lane) : (s.onLane l f).routes = s.routes := rfl
@[simp] theorem State.nextHandle_onLane (s : State) (l : LaneId) (f : Lane → Lane) :
    (s.onLane l f).nextHandle = s.nextHandle := rfl
@[simp] theorem State.reports_onLane (s : State) (l : LaneId) (f : Lane → Lane) : (s.onLane l f).reports = s.reports := rfl
@[simp] theorem State.hli_onLane (s : State) (l : LaneId) (f : Lane → Lane) : (s.onLane l f).hli = s.hli := rfl
@[simp] theorem State.pending_onLane (s : State) (l : LaneId) (f : Lane → Lane) : (s.onLane l f).pending = s.pending := rfl
@[simp] theorem State.slot_onLane (s : State) (l : LaneId) (f : Lane → Lane) (r : SlotRef) :
    (s.onLane l f).slot r = s.slot r := rfl
@[simp] theorem State.routeList_onLane (s : State) (l : LaneId) (f : Lane → Lane) : (s.onLane l f).routeList = s.routeList := rfl

/-! ## The line state of a lane -/

@[simp] theorem LineState.drainOwed_startDriving (x : LineState) : x.startDriving.drainOwed = x.drainOwed := rfl
@[simp] theorem LineState.position_startDriving (x : LineState) : x.startDriving.position = x.position := rfl
@[simp] theorem LineState.cell_startDriving (x : LineState) : x.startDriving.cell = x.cell := rfl
@[simp] theorem LineState.driving_startDriving (x : LineState) : x.startDriving.driving = true := rfl
@[simp] theorem LineState.drainOwed_release (x : LineState) : x.release.drainOwed = x.drainOwed := rfl
@[simp] theorem LineState.position_release (x : LineState) : x.release.position = x.position := rfl
@[simp] theorem LineState.cell_release (x : LineState) : x.release.cell = x.cell := rfl
@[simp] theorem LineState.driving_release (x : LineState) : x.release.driving = false := rfl
@[simp] theorem LineState.drainOwed_dominantBit (x : LineState) : x.dominantBit.drainOwed = x.drainOwed := rfl
@[simp] theorem LineState.position_dominantBit (x : LineState) : x.dominantBit.position = x.position := rfl
@[simp] theorem LineState.cell_dominantBit (x : LineState) : x.dominantBit.cell = x.cell := rfl
@[simp] theorem LineState.driving_dominantBit (x : LineState) : x.dominantBit.driving = x.driving := rfl
@[simp] theorem LineState.drainOwed_firstDominant (x : LineState) : x.firstDominant.drainOwed = x.drainOwed := rfl
@[simp] theorem LineState.position_firstDominant (x : LineState) : x.firstDominant.position = x.position := rfl
@[simp] theorem LineState.cell_firstDominant (x : LineState) : x.firstDominant.cell = x.cell := rfl
@[simp] theorem LineState.driving_firstDominant (x : LineState) : x.firstDominant.driving = x.driving := rfl
@[simp] theorem LineState.drainOwed_waitOn (x : LineState) : x.waitOn.drainOwed = x.drainOwed := rfl
@[simp] theorem LineState.position_waitOn (x : LineState) : x.waitOn.position = x.position := rfl
@[simp] theorem LineState.cell_waitOn (x : LineState) : x.waitOn.cell = x.cell := rfl
@[simp] theorem LineState.driving_waitOn (x : LineState) : x.waitOn.driving = x.driving := rfl
@[simp] theorem LineState.drainOwed_stuck (x : LineState) : x.stuck.drainOwed = x.drainOwed := rfl
@[simp] theorem LineState.position_stuck (x : LineState) : x.stuck.position = x.position := rfl
@[simp] theorem LineState.cell_stuck (x : LineState) : x.stuck.cell = x.cell := rfl
@[simp] theorem LineState.driving_stuck (x : LineState) : x.stuck.driving = x.driving := rfl
@[simp] theorem LineState.drainOwed_recessiveFor (x : LineState) (n : Nat) : (x.recessiveFor n).drainOwed = x.drainOwed := rfl
@[simp] theorem LineState.position_recessiveFor (x : LineState) (n : Nat) : (x.recessiveFor n).position = x.position := rfl
@[simp] theorem LineState.cell_recessiveFor (x : LineState) (n : Nat) : (x.recessiveFor n).cell = x.cell := rfl
@[simp] theorem LineState.driving_recessiveFor (x : LineState) (n : Nat) : (x.recessiveFor n).driving = x.driving := rfl
@[simp] theorem LineState.drainOwed_reach (x : LineState) (n : Nat) : (x.reach n).drainOwed = x.drainOwed := rfl
@[simp] theorem LineState.position_reach (x : LineState) (n : Nat) : (x.reach n).position = x.position := rfl
@[simp] theorem LineState.cell_reach (x : LineState) (n : Nat) : (x.reach n).cell = x.cell := rfl
@[simp] theorem LineState.driving_reach (x : LineState) (n : Nat) : (x.reach n).driving = x.driving := rfl
@[simp] theorem LineState.drainOwed_sentWhole (x : LineState) (levels : List Bool) : (x.sentWhole levels).drainOwed = x.drainOwed := rfl
@[simp] theorem LineState.position_sentWhole (x : LineState) (levels : List Bool) : (x.sentWhole levels).position = x.position := rfl
@[simp] theorem LineState.cell_sentWhole (x : LineState) (levels : List Bool) : (x.sentWhole levels).cell = x.cell := rfl
@[simp] theorem LineState.driving_sentWhole (x : LineState) (levels : List Bool) : (x.sentWhole levels).driving = false := rfl

@[simp] theorem LineState.driving_send (x : LineState) (i : Nat) (place : Nat × Nat) (recessive : Bool) :
    (x.send i place recessive).driving = !recessive := by cases recessive <;> rfl
@[simp] theorem LineState.sent_send (x : LineState) (i : Nat) (place : Nat × Nat) (recessive : Bool) :
    (x.send i place recessive).sent = i := by cases recessive <;> rfl
@[simp] theorem LineState.position_send (x : LineState) (i : Nat) (place : Nat × Nat) (recessive : Bool) :
    (x.send i place recessive).position = some place := by cases recessive <;> rfl
@[simp] theorem LineState.drainOwed_send (x : LineState) (i : Nat) (place : Nat × Nat) (recessive : Bool) :
    (x.send i place recessive).drainOwed = x.drainOwed := by cases recessive <;> rfl
@[simp] theorem LineState.cell_send (x : LineState) (i : Nat) (place : Nat × Nat) (recessive : Bool) :
    (x.send i place recessive).cell = x.cell := by cases recessive <;> rfl
@[simp] theorem LineState.driving_afterCell (x : LineState) (levels : BitVec 9) : (x.afterCell levels).driving = x.driving := by
  unfold LineState.afterCell; split <;> rfl
@[simp] theorem LineState.drainOwed_afterCell (x : LineState) (levels : BitVec 9) : (x.afterCell levels).drainOwed = x.drainOwed := by
  unfold LineState.afterCell; split <;> rfl
@[simp] theorem LineState.cell_afterCell (x : LineState) (levels : BitVec 9) : (x.afterCell levels).cell = none := by
  unfold LineState.afterCell; split <;> rfl

/-! ## Slots -/

@[simp] theorem State.slot_setSlot_self (s : State) (r : SlotRef) (x : SlotRecord) : (s.setSlot r x).slot r = x := by
  simp [State.slot, State.setSlot]

theorem State.slot_setSlot_of_ne (s : State) {r q : SlotRef} (x : SlotRecord) (h : q ≠ r) :
    (s.setSlot r x).slot q = s.slot q := by
  obtain ⟨rl, rk⟩ := r
  obtain ⟨ql, qk⟩ := q
  by_cases hl : ql = rl
  · subst hl
    have hk : rk.val ≠ qk.val := fun e => h (by rw [Fin.ext e])
    simp [State.slot, State.setSlot, hk]
  · have hl' : rl.val ≠ ql.val := fun e => hl (Fin.ext e.symm)
    simp [State.slot, State.setSlot, hl']

/-- A record after a change of some record. -/
theorem State.slot_setSlot (s : State) (r q : SlotRef) (x : SlotRecord) :
    (s.setSlot r x).slot q = if q = r then x else s.slot q := by
  by_cases h : q = r
  · subst h; simp
  · simp [h, s.slot_setSlot_of_ne x h]

@[simp] theorem State.lanes_setSlot (s : State) (r : SlotRef) (x : SlotRecord) : (s.setSlot r x).lanes = s.lanes := rfl
@[simp] theorem State.routes_setSlot (s : State) (r : SlotRef) (x : SlotRecord) : (s.setSlot r x).routes = s.routes := rfl
@[simp] theorem State.nextHandle_setSlot (s : State) (r : SlotRef) (x : SlotRecord) :
    (s.setSlot r x).nextHandle = s.nextHandle := rfl
@[simp] theorem State.reports_setSlot (s : State) (r : SlotRef) (x : SlotRecord) : (s.setSlot r x).reports = s.reports := rfl
@[simp] theorem State.hli_setSlot (s : State) (r : SlotRef) (x : SlotRecord) : (s.setSlot r x).hli = s.hli := rfl
@[simp] theorem State.pending_setSlot (s : State) (r : SlotRef) (x : SlotRecord) : (s.setSlot r x).pending = s.pending := rfl
@[simp] theorem State.lane_setSlot (s : State) (r : SlotRef) (x : SlotRecord) (l : LaneId) :
    (s.setSlot r x).lane l = s.lane l := rfl
@[simp] theorem State.routeList_setSlot (s : State) (r : SlotRef) (x : SlotRecord) :
    (s.setSlot r x).routeList = s.routeList := rfl

/-! ## The Report Queue -/

@[simp] theorem State.reports_report (s : State) (r : Report) : (s.report r).reports = s.reports.handOver r := rfl
@[simp] theorem State.slots_report (s : State) (r : Report) : (s.report r).slots = s.slots := rfl
@[simp] theorem State.lanes_report (s : State) (r : Report) : (s.report r).lanes = s.lanes := rfl
@[simp] theorem State.routes_report (s : State) (r : Report) : (s.report r).routes = s.routes := rfl
@[simp] theorem State.nextHandle_report (s : State) (r : Report) : (s.report r).nextHandle = s.nextHandle := rfl
@[simp] theorem State.hli_report (s : State) (r : Report) : (s.report r).hli = s.hli := rfl
@[simp] theorem State.pending_report (s : State) (r : Report) : (s.report r).pending = s.pending := rfl
@[simp] theorem State.lane_report (s : State) (r : Report) (l : LaneId) : (s.report r).lane l = s.lane l := rfl
@[simp] theorem State.slot_report (s : State) (r : Report) (q : SlotRef) : (s.report r).slot q = s.slot q := rfl
@[simp] theorem State.routeList_report (s : State) (r : Report) : (s.report r).routeList = s.routeList := rfl

@[simp] theorem State.setLane_report (s : State) (r : Report) (l : LaneId) (L : Lane) :
    (s.report r).setLane l L = (s.setLane l L).report r := rfl

/-! ## The Host Link Interface -/

@[simp] theorem State.setLane_onHli (s : State) (f : Hli → Hli) (l : LaneId) (L : Lane) :
    (s.onHli f).setLane l L = (s.setLane l L).onHli f := rfl
@[simp] theorem State.report_onHli (s : State) (f : Hli → Hli) (r : Report) :
    (s.onHli f).report r = (s.report r).onHli f := rfl
@[simp] theorem State.setSlot_onHli (s : State) (f : Hli → Hli) (r : SlotRef) (x : SlotRecord) :
    (s.onHli f).setSlot r x = (s.setSlot r x).onHli f := rfl
@[simp] theorem State.onLane_onHli (s : State) (f : Hli → Hli) (l : LaneId) (g : Lane → Lane) :
    (s.onHli f).onLane l g = (s.onLane l g).onHli f := rfl
@[simp] theorem State.begin_onHli (s : State) (f : Hli → Hli) (l : LaneId) (t : Transaction) :
    (s.onHli f).begin l t = (s.begin l t).onHli f := rfl

@[simp] theorem State.hli_onHli (s : State) (f : Hli → Hli) : (s.onHli f).hli = f s.hli := rfl
@[simp] theorem State.slots_onHli (s : State) (f : Hli → Hli) : (s.onHli f).slots = s.slots := rfl
@[simp] theorem State.lanes_onHli (s : State) (f : Hli → Hli) : (s.onHli f).lanes = s.lanes := rfl
@[simp] theorem State.routes_onHli (s : State) (f : Hli → Hli) : (s.onHli f).routes = s.routes := rfl
@[simp] theorem State.nextHandle_onHli (s : State) (f : Hli → Hli) : (s.onHli f).nextHandle = s.nextHandle := rfl
@[simp] theorem State.reports_onHli (s : State) (f : Hli → Hli) : (s.onHli f).reports = s.reports := rfl
@[simp] theorem State.pending_onHli (s : State) (f : Hli → Hli) : (s.onHli f).pending = s.pending := rfl
@[simp] theorem State.lane_onHli (s : State) (f : Hli → Hli) (l : LaneId) : (s.onHli f).lane l = s.lane l := rfl
@[simp] theorem State.slot_onHli (s : State) (f : Hli → Hli) (q : SlotRef) : (s.onHli f).slot q = s.slot q := rfl
@[simp] theorem State.routeList_onHli (s : State) (f : Hli → Hli) : (s.onHli f).routeList = s.routeList := rfl
@[simp] theorem State.routeFed_onHli (s : State) (f : Hli → Hli) (q : SlotRef) : (s.onHli f).routeFed q = s.routeFed q := rfl
@[simp] theorem State.inUse_onHli (s : State) (f : Hli → Hli) (q : SlotRef) : (s.onHli f).inUse q = s.inUse q := rfl
@[simp] theorem State.busy_onHli (s : State) (f : Hli → Hli) (l : LaneId) : (s.onHli f).busy l = s.busy l := rfl

/-! ## HTX -/

/-- HTX is at the idle level while no frame is in transmission (R162). -/
theorem State.htxHigh_idle {s : State} (h : s.hli.transmitting = none) (bit : Nat) : s.htxHigh bit = true := by
  simp [State.htxHigh, h]

/-- HTX carries the bits of the frame in transmission, and is high behind them (R152, R162). -/
theorem State.htxHigh_frame {s : State} {f : OutFrame} (h : s.hli.transmitting = some f) (bit : Nat) :
    s.htxHigh bit = (f.frame.bits[bit]?).getD true := by
  simp [State.htxHigh, h]

/-! ## Routes -/

@[simp] theorem State.setRoute_onHli (s : State) (f : Hli → Hli) (i : Fin 16) (r : Option Route) :
    (s.onHli f).setRoute i r = (s.setRoute i r).onHli f := rfl
@[simp] theorem State.route_onHli (s : State) (f : Hli → Hli) (i : Fin 16) : (s.onHli f).route i = s.route i := rfl

@[simp] theorem State.route_setRoute_self (s : State) (i : Fin 16) (r : Option Route) : (s.setRoute i r).route i = r := by
  simp [State.route, State.setRoute]

theorem State.route_setRoute_of_ne (s : State) {i j : Fin 16} (r : Option Route) (h : j ≠ i) :
    (s.setRoute i r).route j = s.route j := by
  have h' : i.val ≠ j.val := fun e => h (Fin.ext e.symm)
  simp [State.route, State.setRoute, h']

@[simp] theorem State.slots_setRoute (s : State) (i : Fin 16) (r : Option Route) : (s.setRoute i r).slots = s.slots := rfl
@[simp] theorem State.lanes_setRoute (s : State) (i : Fin 16) (r : Option Route) : (s.setRoute i r).lanes = s.lanes := rfl
@[simp] theorem State.hli_setRoute (s : State) (i : Fin 16) (r : Option Route) : (s.setRoute i r).hli = s.hli := rfl
@[simp] theorem State.reports_setRoute (s : State) (i : Fin 16) (r : Option Route) : (s.setRoute i r).reports = s.reports := rfl
@[simp] theorem State.nextHandle_setRoute (s : State) (i : Fin 16) (r : Option Route) :
    (s.setRoute i r).nextHandle = s.nextHandle := rfl
@[simp] theorem State.pending_setRoute (s : State) (i : Fin 16) (r : Option Route) : (s.setRoute i r).pending = s.pending := rfl
@[simp] theorem State.slot_setRoute (s : State) (i : Fin 16) (r : Option Route) (q : SlotRef) :
    (s.setRoute i r).slot q = s.slot q := rfl

end Sys2Proof.Machine
end

