-- ==== Sys2Proof/Laws/Cells.lean ====
section
/-!
SUPPORT. How the lane cells are read: the value and the stop bit of the levels of a cell, the header and tag cells, and what receiving a
cell does before its check (R33, R35, R36, R197); how the bits sent are read back (R41); and the CRCs taken bit by bit (R37, R152).
-/

namespace Sys2Proof.Machine

open Sys2Proof

theorem cellStopDominant_of_recessive : ∀ v : Byte, cellStopDominant (1#1 ++ v) = false := by decide

theorem cellValue_of_recessive : ∀ v : Byte, cellValue (1#1 ++ v) = v := by decide

theorem headerOfCell_headerCell : ∀ n ≤ 12, ∀ attention, headerOfCell (headerCell n attention) = some (n, attention) := by decide

theorem tagOfCell_numberCell : ∀ n : BitVec 5, n ≠ 0 → tagOfCell (numberCell n.toNat) = some n := by decide

/-- A header cell that fails its check, or carries a length of 13 to 15. -/
theorem headerOfCell_eq_none :
    ∀ v : Byte, (v.toNat / 32 ≠ 7 - v.toNat % 8 ∨ 13 ≤ v.toNat % 16) → headerOfCell v = none := by decide

/-- A tag cell that fails its check, or carries the tag 0. -/
theorem tagOfCell_eq_none :
    ∀ v : Byte, (v.toNat % 32 = 0 ∨ v.toNat / 32 ≠ (v.toNat % 32 * 5 + 3) % 8) → tagOfCell v = none := by decide

/-- Nine bit times taken one by one give the levels of the cell that they are. -/
theorem levelsOf_bits : ∀ levels : BitVec 9, levelsOf ((List.range 9).map levels.getLsbD) = levels := by decide +kernel

/-- A byte is read back from its levels, and a low stop bit makes a bad byte (R152, R153). -/
theorem linkByte_stop : ∀ b : Byte, linkByte (1#1 ++ b) = some b ∧ linkByte (0#1 ++ b) = none := by decide

/-- What a response cell with a recessive stop bit leaves of the line before its check. -/
theorem takeCell_of_recessive (l : LaneId) (s : State) (t : Transaction) (v : Byte)
    (check : LaneId → Transaction → Byte → State → Host.Outcome State Fault Refusal) :
    takeCell l t (1#1 ++ v) s check =
      check l t v (s.setLane l { s.lane l with
        line := { (s.lane l).line with dominantRun := 0, recessiveRun := cellEndRun (1#1 ++ v), waited := 0, cell := none } }) := by
  simp [takeCell, cellStopDominant_of_recessive, cellValue_of_recessive, State.onLine, State.onLane, Lane.onLine, LineState.afterCell]

/-- A dominant stop bit ends the transaction whatever the cell holds (R33). -/
theorem takeCell_of_dominant {levels : BitVec 9} (l : LaneId) (s : State) (t : Transaction)
    (check : LaneId → Transaction → Byte → State → Host.Outcome State Fault Refusal) (h : cellStopDominant levels = true) :
    takeCell l t levels s check = .next (endTransaction l .framingError t.cellIndex 9 (s.onLine l fun x => x.afterCell levels)) := by
  simp [takeCell, h]

/-- A cell that is awaited, and begins with the bits taken so far, is taken. -/
theorem receiveCell_eq {l : LaneId} {s : State} {t : Transaction} {awaited : Transaction → Bool} {cell : Samples 9}
    {check : LaneId → Transaction → Byte → State → Host.Outcome State Fault Refusal} (ht : (s.lane l).transaction = some t)
    (hp : t.phase = .receive) (ha : awaited t = true)
    (hf : (s.lane l).line.fits (cell.levels (s.lane l).config.sampleFilter) = true) :
    receiveCell l awaited cell s check = takeCell l t (cell.levels (s.lane l).config.sampleFilter) s check := by
  simp [receiveCell, inPhase, ht, hp, ha, hf]

/-- The check that a cell awaits is that of the one place it is awaited in (R33). -/
theorem takeAwaited_eq (l : LaneId) (t : Transaction) (v : Byte) (s : State) :
    (t.awaitsTag = true → takeAwaited l t v s = takeTag l t v s) ∧ (t.awaitsHeader = true → takeAwaited l t v s = takeHeader l t v s)
      ∧ (t.awaitsData = true → takeAwaited l t v s = takeData l t v s)
      ∧ (t.awaitsCheck = true → takeAwaited l t v s = takeCheck l t v s) := by
  cases htag : t.awaitsTag <;> cases hh : t.header <;>
    simp [takeAwaited, Transaction.awaitsHeader, Transaction.awaitsData, Transaction.awaitsCheck, htag, hh]
  constructor <;> intros <;> omega

/-! ## The CRCs bit by bit -/

/-- Shifting `n` times what holds `d` beside a CRC takes the first `n` bits of `d`, most significant first, into the CRC, and leaves the rest
of `d` beside it. -/
theorem repeat_shift_xor {w : Nat} (poly c d : BitVec w) (n : Nat) :
    Nat.repeat (fun x : BitVec w => if x.msb then (x <<< 1) ^^^ poly else x <<< 1) n (c ^^^ d)
      = ((List.range n).map fun i => (d <<< i).msb).foldl
          (fun (crc : BitVec w) bit => if crc.msb = bit then crc <<< 1 else (crc <<< 1) ^^^ poly) c ^^^ (d <<< n) := by
  induction n with
  | zero => simp [Nat.repeat]
  | succ n ih =>
    rw [Nat.repeat, ih, List.range_succ, List.map_append, List.foldl_append]
    generalize List.foldl _ c _ = x
    rw [BitVec.msb_xor, BitVec.shiftLeft_xor_distrib, ← BitVec.shiftLeft_add]
    cases hx : x.msb <;> cases hd : (d <<< n).msb <;> simp only [List.map_cons, List.map_nil, List.foldl_cons, List.foldl_nil, hx, hd] <;>
      simp [BitVec.xor_assoc, BitVec.xor_comm poly]

/-- One byte into the CRC-16, bit by bit (R152). -/
theorem crc16Byte_eq (c : BitVec 16) (b : Byte) :
    crc16Byte c b = ((List.range 8).map fun i => b.getLsbD (7 - i)).foldl
      (fun (crc : BitVec 16) bit => if crc.msb = bit then crc <<< 1 else (crc <<< 1) ^^^ 0x1021#16) c := by
  have rest : ∀ b : Byte, (b.zeroExtend 16 <<< 8) <<< 8 = 0#16 := by decide
  have taken : ∀ b : Byte, (List.range 8).map (fun i => ((b.zeroExtend 16 <<< 8) <<< i).msb)
      = (List.range 8).map fun i => b.getLsbD (7 - i) := by decide +kernel
  rw [crc16Byte, repeat_shift_xor, rest, taken, BitVec.xor_zero]

/-- One cell value into the CRC-8, bit by bit (R37). -/
theorem crc8Byte_eq (c b : Byte) :
    crc8Byte c b = ((List.range 8).map fun i => b.getLsbD (7 - i)).foldl
      (fun (crc : Byte) bit => if crc.msb = bit then crc <<< 1 else (crc <<< 1) ^^^ 0x1D#8) c := by
  have rest : ∀ b : Byte, b <<< 8 = 0#8 := by decide
  have taken : ∀ b : Byte, (List.range 8).map (fun i => (b <<< i).msb) = (List.range 8).map fun i => b.getLsbD (7 - i) := by
    decide +kernel
  rw [crc8Byte, repeat_shift_xor, rest, taken, BitVec.xor_zero]

/-! ## Bits sent -/

/-- A bit that reads otherwise than it was sent ends the transaction there (R41). -/
theorem readBack_mismatch {l : LaneId} {s : State} {t : Transaction} {dominant recessive : Bool}
    (h : t.levelsSent[(s.lane l).line.sent]? = some recessive) (hd : dominant = recessive) :
    readBack l t dominant s = .next (failReadback l t (s.lane l).line.sent s) := by
  simp [readBack, h, hd]

/-- A bit that reads as it was sent takes the engine to the next one (R41). -/
theorem readBack_next {l : LaneId} {s : State} {t : Transaction} {dominant recessive next : Bool}
    (h : t.levelsSent[(s.lane l).line.sent]? = some recessive) (hn : t.levelsSent[(s.lane l).line.sent + 1]? = some next)
    (hd : dominant ≠ recessive) :
    readBack l t dominant s = .next (s.onLine l fun x =>
      (if recessive then x.recessiveFor 1 else x).send ((s.lane l).line.sent + 1) (t.placeSent ((s.lane l).line.sent + 1)) next) := by
  simp only [readBack, h, hn, if_neg hd]

/-- The last bit that reads as it was sent completes the call or the publish (R49, R51). -/
theorem readBack_last {l : LaneId} {s : State} {t : Transaction} {dominant recessive : Bool}
    (h : t.levelsSent[(s.lane l).line.sent]? = some recessive) (hn : t.levelsSent[(s.lane l).line.sent + 1]? = none)
    (hd : dominant ≠ recessive) :
    readBack l t dominant s = .next (if t.phase = .send then completePublish l t s else completeCall l t s) := by
  simp only [readBack, h, hn, if_neg hd]

end Sys2Proof.Machine
end

