-- ==== Sys2Proof/Laws/Handler.lean ====
section
/-!
SUPPORT. What the request handler does with a frame that it takes, said once for every request row; how the fields of a body are read
back from their bytes; and how the operations of a lane engine commute with a change of the Host Link Interface.
-/

namespace Sys2Proof.Machine

open Sys2Proof

/-! ## Taking a frame -/

/-- Step 1 of R157: the oldest frame leaves the receive buffer. -/
def Hli.popBuffer (h : Hli) : Hli := { h with buffer := h.buffer.tail }

/-- What the handler does with a frame that it takes, and that is no duplicate. -/
theorem handle_of_takes {s : State} {f : Frame} (act : List Byte → State → State × Answer) (h : Takes s f) :
    handle f act s = .next (carryOut f act (s.onHli Hli.popBuffer)) := by
  have hc : (s.onHli Hli.popBuffer).hli.cached f = none := h.fresh
  have hp : ¬ 4 ≤ s.hli.replies.length := Nat.not_le.mpr h.place
  simp only [handle, h.running, hp, h.oldest, Bool.false_eq_true, if_false, if_true]
  change (match (s.onHli Hli.popBuffer).hli.cached f with
    | some e => Host.Outcome.next (answerDuplicate e (s.onHli Hli.popBuffer))
    | none => .next (carryOut f act (s.onHli Hli.popBuffer))) = _
  rw [hc]

/-- What a step of R157 leaves in the Host Link Interface, where the entry of the request has made the state `u`. -/
theorem answers_of_act {s u : State} {f : Frame} {c : Instr} {act : List Byte → State → State × Answer} {status : Status}
    {fields : List Byte} (h : Takes s f) (hexec : exec c s = handle f act s)
    (hact : act f.body (s.onHli Hli.popBuffer) = (u.onHli Hli.popBuffer, ⟨status, fields⟩))
    (hkind : f.kind ≠ 0x03 ∨ status ≠ .ok) : Answers c f s status fields u := by
  have hk : (f.tag = 0 ∨ f.kind = 0x03 ∧ status = .ok) ↔ f.tag = 0 := by tauto
  rw [Answers, hexec, handle_of_takes act h, carryOut, hact]
  simp only [State.onHli, Hli.queueReply, Hli.remember, Hli.answered, Hli.popBuffer, hk]
  split <;> rfl

/-- A refusal by an entry of the catalogue. -/
theorem refuses_of_act {s : State} {f : Frame} {c : Instr} {act : List Byte → State → State × Answer} {status : Status}
    (h : Takes s f) (hexec : exec c s = handle f act s)
    (hact : act f.body (s.onHli Hli.popBuffer) = refuse status (s.onHli Hli.popBuffer)) (hs : status ≠ .ok) :
    Refuses c f s status :=
  answers_of_act h hexec hact (.inr hs)

/-! ## Fields of a body -/

@[simp] theorem byte_toNat_of_lt {n : Nat} (h : n < 256) : (byte n).toNat = n := by
  simp [byte, BitVec.toNat_ofNat, Nat.mod_eq_of_lt h]

@[simp] theorem laneOf_byte (l : LaneId) : laneOf (byte l.val) = some l := by
  have h : (byte l.val).toNat = l.val := byte_toNat_of_lt (by omega)
  simp [laneOf, h]

@[simp] theorem slotOf_byte (k : SlotId) : slotOf (byte k.val) = some k := by
  have h : (byte k.val).toNat = k.val := byte_toNat_of_lt (by omega)
  simp [slotOf, h]

theorem userSlotOf_byte {k : SlotId} (h : k ≠ 0) : userSlotOf (byte k.val) = some k := by
  simp [userSlotOf, h]

@[simp] theorem indexOf_byte (i : Fin 16) : indexOf (byte i.val) = some i := by
  have h : (byte i.val).toNat = i.val := byte_toNat_of_lt (by omega)
  simp [indexOf, h]

theorem laneOf_of_le {b : Byte} (h : 4 ≤ b.toNat) : laneOf b = none := by
  simp [laneOf, Nat.not_lt.mpr h]

theorem slotOf_of_le {b : Byte} (h : 32 ≤ b.toNat) : slotOf b = none := by
  simp [slotOf, Nat.not_lt.mpr h]

theorem userSlotOf_eq_none {b : Byte} (h : b = 0 ∨ 32 ≤ b.toNat) : userSlotOf b = none := by
  rcases h with rfl | h
  · decide
  · simp [userSlotOf, slotOf_of_le h]

theorem routeModeOf_code (m : RouteMode) : routeModeOf m.code = some m := by cases m <;> decide

theorem reportModeOf_code (m : ReportMode) : reportModeOf m.code = some m := by cases m <;> decide

theorem flagOf_of_le {b : Byte} (h : 2 ≤ b.toNat) : flagOf b = none := by
  have h0 : b ≠ 0 := by rintro rfl; simp at h
  have h1 : b ≠ 1 := by rintro rfl; simp at h
  rw [flagOf, if_neg h0, if_neg h1]

theorem timingOf_timing {e : Entry} (h : e.phase < 2 ^ e.exponent.val) : timingOf e.timing = some (e.exponent, e.phase) := by
  have hx := e.exponent.isLt
  have hp : e.phase < 16 := lt_of_lt_of_le h (by
    calc 2 ^ e.exponent.val ≤ 2 ^ 4 := Nat.pow_le_pow_right (by omega) (by omega)
      _ = 16 := rfl)
  have hb : e.timing.toNat = e.exponent.val + 16 * e.phase := byte_toNat_of_lt (by omega)
  have hm : (e.exponent.val + 16 * e.phase) % 16 = e.exponent.val := by omega
  have hd : (e.exponent.val + 16 * e.phase) / 16 = e.phase := by omega
  simp [timingOf, hb, hm, hd, h]

/-! ## Routes and references -/

theorem State.mem_routeList (s : State) (t : Route) : t ∈ s.routeList ↔ ∃ i, s.route i = some t := by
  simp only [State.routeList, List.mem_filterMap, id, exists_eq_right, State.route]
  rw [Vector.mem_toList_iff, Vector.mem_iff_getElem]
  constructor
  · rintro ⟨i, h, e⟩; exact ⟨⟨i, h⟩, e⟩
  · rintro ⟨i, e⟩; exact ⟨i.val, i.isLt, e⟩

theorem State.routeFed_iff (s : State) (r : SlotRef) : s.routeFed r = true ↔ RouteFed s r := by
  simp only [State.routeFed, List.any_eq_true, State.mem_routeList, decide_eq_true_eq, RouteFed]
  tauto

theorem State.inRoute_iff (s : State) (r : SlotRef) :
    s.inRoute r = true ↔ ∃ i t, s.route i = some t ∧ (t.src = r ∨ t.dst = r) := by
  simp only [State.inRoute, List.any_eq_true, State.mem_routeList, Bool.or_eq_true, decide_eq_true_eq, ← exists_and_right]
  exact exists_comm

theorem Lane.names_iff (L : Lane) (k : SlotId) :
    L.names k = true ↔ (∃ e ∈ L.entries, e.slot = k) ∨ (∃ o ∈ L.oneShots, o.slot = k)
      ∨ ∃ t, L.transaction = some t ∧ t.source = .oneShot ∧ t.slot = k := by
  simp only [Lane.names, Lane.entries, Bool.or_eq_true, List.any_eq_true, Option.any_eq_true, Bool.and_eq_true, decide_eq_true_eq,
    or_assoc]

theorem State.inUse_iff (s : State) (r : SlotRef) : s.inUse r = true ↔ Referenced s r := by
  rw [State.inUse, Bool.or_eq_true, State.inRoute_iff, Lane.names_iff, or_left_comm, Referenced]

end Sys2Proof.Machine
end

