-- ==== Sys2Proof/Laws/Engine.lean ====
section
/-!
SUPPORT. The operations of a lane engine: that they leave the Host Link Interface to whoever changes it, and what the choice does, one
choice at a time.
-/

namespace Sys2Proof.Machine

open Sys2Proof

/-! ## A change of the Host Link Interface commutes with what a lane engine does -/

theorem beginOneShot_onHli (s : State) (g l) : beginOneShot l (s.onHli g) = (beginOneShot l s).onHli g := by
  simp only [beginOneShot, State.lane_onHli]; split <;> rfl
theorem swapStaged_onHli (s : State) (g l) : swapStaged l (s.onHli g) = (swapStaged l s).onHli g := by
  simp only [swapStaged, State.lane_onHli]; split <;> rfl
theorem considerEntries_onHli (g l es) : ∀ (s : State), considerEntries l es (s.onHli g) = (considerEntries l es s).onHli g := by
  induction es with
  | nil => intro s; rfl
  | cons e rest ih =>
    intro s
    have h1 : advancePosition l (s.onHli g) = (advancePosition l s).onHli g := rfl
    simp only [considerEntries, State.lane_onHli, State.slot_onHli, h1, ih, State.setSlot_onHli]
    have h2 : ∀ a b c s, beginScheduled l a b c (s.onHli g) = (beginScheduled l a b c s).onHli g := fun _ _ _ _ => rfl
    simp only [h2]
    repeat' (split; try rfl)
    all_goals rfl
theorem endRound_onHli (s : State) (g l) : endRound l (s.onHli g) = (endRound l s).onHli g := by
  simp only [endRound, State.onLane_onHli, swapStaged_onHli]

/-! ## The swap and the end of a round (R80, R85) -/

/-- What a swap does, where `L` is the lane before it. -/
theorem swapStaged_eq {l : LaneId} {s : State} {L : Lane} (h : s.lane l = L) : swapStaged l s =
    { s.setLane l
        { L with
          schedules := L.swapped
          round := { L.round with position := if L.schedules.staged.isSome then 0 else L.round.position } } with
      reports := (L.swapReports l).foldl ReportQueue.handOver s.reports } := by
  unfold swapStaged
  split <;> rename_i hst
  · subst h
    simp only [Lane.swapped, Lane.swapReports, hst, Option.isSome, Bool.false_eq_true, if_false]
    exact (State.setLane_lane s l).symm
  · subst h
    simp only [Lane.swapped, Lane.swapReports, hst, State.onLane, State.report]
    simp

/-- What the end of a round does, where `L` is the lane before it. -/
theorem endRound_eq {l : LaneId} {s : State} {L : Lane} (h : s.lane l = L) : endRound l s =
    { s.setLane l
        { L with
          schedules := L.swapped
          round :=
            { L.round with
              counter := L.round.counter + 1, position := 0, worked := false
              pause := if L.round.worked || L.swapped.active.isEmpty then none else some 0 } } with
      reports := (Lane.swapReports { L with round := { L.round with counter := L.round.counter + 1 } } l).foldl
        ReportQueue.handOver s.reports } := by
  rw [endRound, swapStaged_eq (L := { L with round := { L.round with counter := L.round.counter + 1 } }) (by rw [State.lane_onLane_self, h]; rfl)]
  subst h
  simp only [State.onLane, Lane.onRound, Lane.swapped]
  simp [State.setLane, State.lane]

/-! ## The choice (R87) -/

/-- What a choice does once the one-shots have been looked at under the streak: `L` is the lane before it, and `u` the state after the
entries have been considered (steps 3 to 6 of R87). -/
def chooseFrom (n : Nat) (l : LaneId) (L : Lane) (u : State) : State :=
  if u.busy l then u
  else if !L.oneShots.isEmpty then beginOneShot l u
  else if !L.schedules.active.isEmpty && L.round.pause.isNone then chooseIn n l (endRound l u)
  else u

theorem chooseIn_succ {l : LaneId} {s : State} {L : Lane} (h : s.lane l = L) (n : Nat) :
    chooseIn (n + 1) l s =
      if !L.oneShots.isEmpty && L.round.streak < 2 then beginOneShot l s
      else chooseFrom n l L
        (if L.round.pause.isNone then considerEntries l (L.schedules.active.drop L.round.position) s else s) := by
  subst h; rfl

theorem chooseIn_onHli (g l n) : ∀ (s : State), chooseIn n l (s.onHli g) = (chooseIn n l s).onHli g := by
  induction n with
  | zero => intro s; rfl
  | succ n ih =>
    intro s
    have hu : ∀ u, chooseFrom n l (s.lane l) (u.onHli g) = (chooseFrom n l (s.lane l) u).onHli g := by
      intro u
      simp only [chooseFrom, State.busy_onHli, beginOneShot_onHli, endRound_onHli, ih]
      simp only [apply_ite (fun u : State => u.onHli g)]
    rw [chooseIn_succ (State.lane_onHli s g l), chooseIn_succ (L := s.lane l) rfl, beginOneShot_onHli, considerEntries_onHli]
    simp only [apply_ite (fun u : State => u.onHli g), ← hu]
theorem choose_onHli (s : State) (g l) : choose l (s.onHli g) = (choose l s).onHli g := chooseIn_onHli ..

/-- The choice depends on the lane only through its one-shots, its active schedule and its pause. -/
theorem chooseFrom_congr {n : Nat} {l : LaneId} {L M : Lane} (u : State) (h1 : L.oneShots = M.oneShots) (h2 : L.schedules = M.schedules)
    (h3 : L.round.pause = M.round.pause) : chooseFrom n l L u = chooseFrom n l M u := by
  simp only [chooseFrom, h1, h2, h3]

/-- A choice that turns to the schedule. -/
theorem choose_turns_to_schedule {s : State} {l : LaneId} {L : Lane} (h : s.lane l = L)
    (h1 : L.oneShots = [] ∨ 2 ≤ L.round.streak) (hp : L.round.pause = none) :
    choose l s = chooseFrom 2 l L (considerEntries l (L.schedules.active.drop L.round.position) s) := by
  rw [choose, chooseIn_succ h, if_neg, hp]; rfl
  rcases h1 with h1 | h1
  · simp [h1]
  · simp; omega

/-- A choice with no one-shot and with no entry to consider leaves the state as it is. -/
theorem chooseIn_waits {n : Nat} {l : LaneId} {s : State} {L : Lane} (h : s.lane l = L) (ht : L.transaction = none)
    (h1 : L.oneShots = []) (h2 : L.schedules.active = [] ∨ L.round.pause.isSome) : chooseIn n l s = s := by
  cases n with
  | zero => rfl
  | succ n =>
    rw [chooseIn_succ h, if_neg (by simp [h1])]
    have hu : (if L.round.pause.isNone = true then considerEntries l (List.drop L.round.position L.schedules.active) s else s) = s := by
      split
      · rename_i hpn
        rcases h2 with h | h
        · rw [h, List.drop_nil]; rfl
        · cases hh : L.round.pause <;> simp [hh] at h hpn
      · rfl
    rw [hu, chooseFrom, if_neg (by simp [State.busy, h, ht]), if_neg (by simp [h1]), if_neg]
    rcases h2 with h | h
    · simp [h]
    · cases hh : L.round.pause <;> simp [hh] at h ⊢

/-- What considering the first of some entries does, where `L` is the lane before it (R79, R90). -/
theorem considerEntries_cons {l : LaneId} {s : State} {L : Lane} (h : s.lane l = L) (e : Entry) (rest : List Entry) :
    considerEntries l (e :: rest) s =
      (let moved := s.setLane l { L with round := { L.round with position := L.round.position + 1 } }
      if e.due L.round.counter then
        match s.slot ⟨l, e.slot⟩ with
        | .undefined => considerEntries l rest moved
        | .polled r =>
          if r.presence = .absent ∧ r.skipCount + 1 < L.config.probeInterval then
            considerEntries l rest (moved.setSlot ⟨l, e.slot⟩ (.polled { r with skipCount := r.skipCount + 1 }))
          else beginScheduled l e.slot .polled none moved
        | .contended r => beginScheduled l e.slot .contended (some r.budget) moved
        | .published r =>
          if r.data = none then considerEntries l rest moved else beginScheduled l e.slot .published none moved
      else considerEntries l rest moved) := by
  subst h; rfl

/-- Where no entry begins, only the round position of the lane has moved. -/
theorem considerEntries_idle (l : LaneId) (es : List Entry) : ∀ s : State, (considerEntries l es s).busy l = false → s.busy l = false →
    ∃ p, (considerEntries l es s).lane l = { s.lane l with round := {(s.lane l).round with position := p } } := by
  induction es with
  | nil => intro s _ _; exact ⟨_, rfl⟩
  | cons e rest ih =>
    intro s
    rw [considerEntries_cons (L := s.lane l) rfl]
    have key : ∀ u : State,
        u.lane l = { s.lane l with round := { (s.lane l).round with position := (s.lane l).round.position + 1 } } →
        (considerEntries l rest u).busy l = false → s.busy l = false →
        ∃ p, (considerEntries l rest u).lane l = { s.lane l with round := {(s.lane l).round with position := p } } := by
      intro u hu h1 h2
      obtain ⟨p, hp⟩ := ih u h1 (by simp only [State.busy, hu]; exact h2)
      exact ⟨p, by rw [hp, hu]⟩
    have hb : ∀ k a u, (beginScheduled l e.slot k a u).busy l = false → False := by
      intro k a u; simp [State.busy, beginScheduled, State.begin]
    simp only
    split
    · split
      · exact key _ (by simp)
      · split
        · exact key _ (by simp)
        · intro h; exact (hb _ _ _ h).elim
      · intro h; exact (hb _ _ _ h).elim
      · split
        · exact key _ (by simp)
        · intro h; exact (hb _ _ _ h).elim
    · exact key _ (by simp)

/-! ## Changes of condition -/

/-- Entry into RUNNING, up to the choice, where `L` is the lane before it (R83, R116). -/
theorem enterRunning_eq {l : LaneId} {s : State} {L : Lane} (h : s.lane l = L) (cause : Cause) : enterRunning l cause s =
    choose l { s.setLane l { L with condition := .running, schedules := L.swapped, round := L.round.abandoned } with
      reports := (.laneChange l L.condition.reported .running cause :: L.swapReports l).foldl
        ReportQueue.handOver s.reports } := by
  rw [enterRunning]
  congr 1
  subst h
  rw [swapStaged_eq (L := { s.lane l with condition := .running }) (by simp [changeCondition])]
  simp [changeCondition, State.onLane, State.report, Lane.swapped, Lane.swapReports, resetRound, Lane.onRound, RoundState.abandoned]
  simp [State.setLane, State.lane]

/-- Entry into HALTED, where `L` is the lane before it (R83, R84). -/
theorem enterHalted_eq {l : LaneId} {s : State} {L : Lane} (h : s.lane l = L) (cause : Cause) : enterHalted l cause s =
    { s.setLane l
        { L with
          condition := .halted, schedules := L.swapped
          round := { L.round with position := if L.schedules.staged.isSome then 0 else L.round.position } } with
      reports := (.laneChange l L.condition.reported .halted cause :: L.swapReports l).foldl
        ReportQueue.handOver s.reports } := by
  rw [enterHalted]
  subst h
  rw [swapStaged_eq (L := { s.lane l with condition := .halted }) (by simp [changeCondition])]
  simp [changeCondition, State.onLane, State.report, Lane.swapped, Lane.swapReports]
  simp [State.setLane, State.lane]

end Sys2Proof.Machine
end

