-- ==== Sys2Proof/Laws/Reports.lean ====
section
/-!
SUPPORT. What handing a report over can do to the Report Queue (R137, R138, R140).
-/

namespace Sys2Proof.Machine

open Sys2Proof

@[simp] theorem updateRefs_nil : updateRefs [] = [] := rfl

@[simp] theorem updateRefs_append (a b : List Report) : updateRefs (a ++ b) = updateRefs a ++ updateRefs b := by
  simp [updateRefs]

@[simp] theorem updateRefs_slotUpdate (ref : SlotRef) (u : Update) (rest : List Report) :
    updateRefs (.slotUpdate ref u :: rest) = ref :: updateRefs rest := rfl

theorem updateRefs_of_ne {r : Report} (h : ∀ ref u, r ≠ .slotUpdate ref u) (rest : List Report) :
    updateRefs (r :: rest) = updateRefs rest := by
  cases r <;> first | rfl | exact absurd rfl (h _ _)

/-- Nothing merges where no pending SLOT_UPDATE is of the slot. -/
theorem mergeUpdate_eq_none {ref : SlotRef} {u : Update} {records : List Report} (h : ref ∉ updateRefs records) :
    mergeUpdate ref u records = none := by
  induction records with
  | nil => rfl
  | cons r rest ih =>
    by_cases hr : ∃ ref' old, r = .slotUpdate ref' old
    · obtain ⟨ref', old, rfl⟩ := hr
      simp only [updateRefs_slotUpdate, List.mem_cons, not_or] at h
      simp [mergeUpdate, Ne.symm h.1, ih h.2]
    · have hr' : ∀ a b, r ≠ .slotUpdate a b := fun a b e => hr ⟨a, b, e⟩
      rw [updateRefs_of_ne hr'] at h
      have : mergeUpdate ref u (r :: rest) = (mergeUpdate ref u rest).map (r :: ·) := by
        cases r <;> first | rfl | exact absurd rfl (hr' _ _)
      rw [this, ih h]; rfl

/-- What a merge does: the first pending SLOT_UPDATE of the slot takes the newest contents, in its place. -/
theorem mergeUpdate_eq_some {ref : SlotRef} {u : Update} {records merged : List Report}
    (h : mergeUpdate ref u records = some merged) :
    ∃ before old after, records = before ++ .slotUpdate ref old :: after ∧ ref ∉ updateRefs before
      ∧ merged = before ++ .slotUpdate ref { u with merged := min (old.merged + u.merged + 1) 255 } :: after := by
  induction records generalizing merged with
  | nil => simp [mergeUpdate] at h
  | cons r rest ih =>
    by_cases hr : ∃ old, r = .slotUpdate ref old
    · obtain ⟨old, rfl⟩ := hr
      simp only [mergeUpdate, if_true, Option.some.injEq] at h
      exact ⟨[], old, rest, rfl, by simp, h.symm⟩
    · have hm : mergeUpdate ref u (r :: rest) = (mergeUpdate ref u rest).map (r :: ·) := by
        cases r with
        | slotUpdate ref' old =>
          have hne : ref' ≠ ref := by rintro rfl; exact hr ⟨old, rfl⟩
          simp [mergeUpdate, hne]
        | _ => rfl
      rw [hm, Option.map_eq_some_iff] at h
      obtain ⟨m, hm', rfl⟩ := h
      obtain ⟨before, old, after, rfl, hb, rfl⟩ := ih hm'
      refine ⟨r :: before, old, after, rfl, ?_, rfl⟩
      cases r with
      | slotUpdate ref' old' =>
        have hne : ref ≠ ref' := by rintro rfl; exact hr ⟨old', rfl⟩
        simp [hne, hb]
      | _ => exact hb

/-- Everything that handing a report over can do: merge in place, append, or drop and count. -/
theorem ReportQueue.handOver_cases (q : ReportQueue) (r : Report) :
    (∃ ref u before old after, r = .slotUpdate ref u ∧ q.unsent = before ++ .slotUpdate ref old :: after
        ∧ ref ∉ updateRefs before
        ∧ q.handOver r
          = { q with
              unsent := before ++ .slotUpdate ref { u with merged := min (old.merged + u.merged + 1) 255 } :: after })
      ∨ r.mergeInto q.unsent = none ∧ q.size < 48 ∧ q.handOver r = { q with unsent := q.unsent ++ [r] }
      ∨ r.mergeInto q.unsent = none ∧ 48 ≤ q.size
        ∧ q.handOver r
          = { q with lostCount := bump 65535 q.lostCount, lostKinds := q.lostKinds ||| r.lostBit } := by
  cases hm : r.mergeInto q.unsent with
  | some records =>
    left
    cases r with
    | slotUpdate ref u =>
      obtain ⟨before, old, after, h1, h2, rfl⟩ := mergeUpdate_eq_some hm
      exact ⟨ref, u, before, old, after, rfl, h1, h2, by simp only [ReportQueue.handOver, hm]⟩
    | _ => simp [Report.mergeInto] at hm
  | none =>
    right
    by_cases hs : q.size < 48
    · exact .inl ⟨rfl, hs, by simp only [ReportQueue.handOver, hm, ReportQueue.append, if_pos hs]⟩
    · exact .inr ⟨rfl, Nat.le_of_not_lt hs, by simp only [ReportQueue.handOver, hm, ReportQueue.append, if_neg hs]⟩

@[simp] theorem ReportQueue.inFlight_handOver (q : ReportQueue) (r : Report) : (q.handOver r).inFlight = q.inFlight := by
  rcases q.handOver_cases r with ⟨_, _, _, _, _, -, -, -, h⟩ | ⟨-, -, h⟩ | ⟨-, -, h⟩ <;> rw [h]

@[simp] theorem ReportQueue.inFlight_foldl_handOver (rs : List Report) (q : ReportQueue) :
    (rs.foldl ReportQueue.handOver q).inFlight = q.inFlight := by
  induction rs generalizing q with
  | nil => rfl
  | cons r rs ih => simp [ih]

/-- A report handed over never takes the queue past its places. -/
theorem ReportQueue.size_handOver_le (q : ReportQueue) (r : Report) : (q.handOver r).size ≤ max q.size 48 := by
  rcases q.handOver_cases r with ⟨_, _, _, _, _, -, hq, -, h⟩ | ⟨-, hs, h⟩ | ⟨-, -, h⟩ <;> rw [h]
  · simp [ReportQueue.size, hq]
  · simp only [ReportQueue.size, List.length_append, List.length_cons, List.length_nil] at hs ⊢; omega
  · exact le_max_left _ _

end Sys2Proof.Machine
end

