-- ==== Sys2Proof/Laws/Frames.lean ====
section
/-!
SUPPORT. What each operation of a lane engine leaves alone: the other lanes, the configuration and the builder of its own, the routes,
the handles, the Host Link Interface, what is in flight, and the waiting commands.
-/

namespace Sys2Proof.Machine

open Sys2Proof

variable {l : LaneId} {s t u : State}

theorem OnlyLane.refl (l : LaneId) (s : State) : OnlyLane l s s := ⟨fun _ _ => rfl, rfl, rfl, rfl, rfl, rfl, rfl, rfl⟩

theorem OnlyLane.trans (h : OnlyLane l s t) (k : OnlyLane l t u) : OnlyLane l s u where
  lanes m hm := (k.lanes m hm).trans (h.lanes m hm)
  config := k.config.trans h.config
  builder := k.builder.trans h.builder
  inFlight := k.inFlight.trans h.inFlight
  routes := k.routes.trans h.routes
  nextHandle := k.nextHandle.trans h.nextHandle
  hli := k.hli.trans h.hli
  pending := k.pending.trans h.pending

/-- A change of the lane that keeps its configuration and its builder. -/
theorem OnlyLane.onLane {f : Lane → Lane} (hc : (f (s.lane l)).config = (s.lane l).config)
    (hb : (f (s.lane l)).schedules.builder = (s.lane l).schedules.builder) : OnlyLane l s (s.onLane l f) where
  lanes _ hm := s.lane_onLane_of_ne f hm
  config := by simp [hc]
  builder := by simp [hb]
  inFlight := rfl
  routes := rfl
  nextHandle := rfl
  hli := rfl
  pending := rfl

theorem OnlyLane.report (l : LaneId) (s : State) (r : Report) : OnlyLane l s (s.report r) :=
  ⟨fun _ _ => rfl, rfl, rfl, by simp, rfl, rfl, rfl, rfl⟩

theorem OnlyLane.setSlot (l : LaneId) (s : State) (r : SlotRef) (x : SlotRecord) : OnlyLane l s (s.setSlot r x) :=
  ⟨fun _ _ => rfl, rfl, rfl, rfl, rfl, rfl, rfl, rfl⟩

/-- A change of the lane that keeps its configuration and its builder, with reports handed over. -/
theorem OnlyLane.setLane_reports {M : Lane} (rs : List Report) (hc : M.config = (s.lane l).config)
    (hb : M.schedules.builder = (s.lane l).schedules.builder) :
    OnlyLane l s { s.setLane l M with reports := rs.foldl ReportQueue.handOver s.reports } where
  lanes _ hm := s.lane_setLane_of_ne M hm
  config := (congrArg Lane.config (s.lane_setLane_self l M)).trans hc
  builder := (congrArg (fun L : Lane => L.schedules.builder) (s.lane_setLane_self l M)).trans hb
  inFlight := by simp
  routes := rfl
  nextHandle := rfl
  hli := rfl
  pending := rfl

theorem OnlyLane.begin (l : LaneId) (s : State) (t : Transaction) : OnlyLane l s (s.begin l t) := .onLane rfl rfl

/-! ## The choice -/

theorem OnlyLane.beginOneShot (l : LaneId) (s : State) : OnlyLane l s (beginOneShot l s) := by
  unfold Machine.beginOneShot
  split
  · exact .refl l s
  · exact (OnlyLane.onLane rfl rfl).trans (.begin ..)

theorem OnlyLane.beginScheduled (l : LaneId) (s : State) (slot : SlotId) (kind : CallKind) (allowance : Option Nat) :
    OnlyLane l s (beginScheduled l slot kind allowance s) := (OnlyLane.onLane rfl rfl).trans (.begin ..)

theorem OnlyLane.advancePosition (l : LaneId) (s : State) : OnlyLane l s (advancePosition l s) := .onLane rfl rfl

theorem OnlyLane.considerEntries (l : LaneId) (es : List Entry) (s : State) : OnlyLane l s (considerEntries l es s) := by
  induction es generalizing s with
  | nil => exact .refl l s
  | cons e rest ih =>
    have hm := OnlyLane.advancePosition l s
    simp only [Machine.considerEntries]
    split
    · split
      · exact hm.trans (ih _)
      · split
        · exact (hm.trans (.setSlot ..)).trans (ih _)
        · exact hm.trans (.beginScheduled ..)
      · exact hm.trans (.beginScheduled ..)
      · split
        · exact hm.trans (ih _)
        · exact hm.trans (.beginScheduled ..)
    · exact hm.trans (ih _)

theorem OnlyLane.swapStaged (l : LaneId) (s : State) : OnlyLane l s (swapStaged l s) := by
  unfold Machine.swapStaged
  split
  · exact .refl l s
  · exact (OnlyLane.onLane rfl rfl).trans (.report ..)

theorem OnlyLane.endRound (l : LaneId) (s : State) : OnlyLane l s (endRound l s) := by
  rw [endRound_eq rfl]
  refine .setLane_reports _ rfl ?_
  simp only [Lane.swapped]
  split <;> rfl

theorem OnlyLane.chooseIn (l : LaneId) (rounds : Nat) (s : State) : OnlyLane l s (chooseIn rounds l s) := by
  induction rounds generalizing s with
  | zero => exact .refl l s
  | succ n ih =>
    rw [chooseIn_succ rfl]
    split
    · exact .beginOneShot l s
    · have hu : OnlyLane l s (if (s.lane l).round.pause.isNone then
          Machine.considerEntries l ((s.lane l).schedules.active.drop (s.lane l).round.position) s else s) := by
        split
        · exact .considerEntries ..
        · exact .refl l s
      refine hu.trans ?_
      generalize (if (s.lane l).round.pause.isNone then
          Machine.considerEntries l ((s.lane l).schedules.active.drop (s.lane l).round.position) s else s) = u
      unfold chooseFrom
      split
      · exact .refl ..
      · split
        · exact .beginOneShot ..
        · split
          · exact (OnlyLane.endRound ..).trans (ih _)
          · exact .refl ..

theorem OnlyLane.choose (l : LaneId) (s : State) : OnlyLane l s (choose l s) := .chooseIn ..

/-! ## Changes of condition -/

theorem OnlyLane.changeCondition (l : LaneId) (s : State) (c : Condition) (cause : Cause) :
    OnlyLane l s (changeCondition l c cause s) := (OnlyLane.onLane rfl rfl).trans (.report ..)

theorem OnlyLane.resetRound (l : LaneId) (s : State) : OnlyLane l s (resetRound l s) := .onLane rfl rfl

theorem OnlyLane.enterRunning (l : LaneId) (s : State) (cause : Cause) : OnlyLane l s (enterRunning l cause s) :=
  (((OnlyLane.changeCondition ..).trans (.swapStaged ..)).trans (.resetRound ..)).trans (.choose ..)

theorem OnlyLane.enterHalted (l : LaneId) (s : State) (cause : Cause) : OnlyLane l s (enterHalted l cause s) :=
  (OnlyLane.changeCondition ..).trans (.swapStaged ..)

theorem OnlyLane.enterResume (l : LaneId) (s : State) (cause : Cause) : OnlyLane l s (enterResume l cause s) := by
  unfold Machine.enterResume
  split
  · exact .enterRunning ..
  · exact .enterHalted ..

/-- What completing the queued one-shots does, where `L` is the lane before it (R102, R103). -/
theorem completeQueued_eq (o : Completion) {L : Lane} (h : s.lane l = L) :
    completeQueued l o s =
      { s.setLane l { L with oneShots := [] } with
        reports := (L.completions l o).foldl ReportQueue.handOver s.reports } := by
  subst h
  have hq : ∀ (q : List OneShot) (u : State),
      q.foldl (fun s x => s.report (.oneShotDone l x.handle o none none)) u
        = { u with
            reports := (q.map fun x => Report.oneShotDone l x.handle o none none).foldl ReportQueue.handOver u.reports } := by
    intro q
    induction q with
    | nil => intro u; rfl
    | cons x q ih => intro u; simp only [List.foldl_cons, List.map_cons, ih]; rfl
  simp only [completeQueued, Lane.completions, hq]; rfl

theorem OnlyLane.completeQueued (l : LaneId) (s : State) (o : Completion) : OnlyLane l s (completeQueued l o s) := by
  rw [completeQueued_eq o rfl]
  exact .setLane_reports _ rfl rfl

/-- Entry into FAULTED, where `L` is the lane before it (R126). -/
theorem enterFaulted_eq (cause : Cause) {L : Lane} (h : s.lane l = L) :
    enterFaulted l cause s =
      { s.setLane l
          { L with
            condition := .faulted, resume := L.condition.resumeAfterFault L.resume, recoveryArmed := false
            readbackRun := 0, line := { L.line with driving := false, recessiveRun := 0 }, oneShots := []
            round := if L.condition = .running ∨ L.condition = .halting then L.round.abandoned else L.round } with
        reports := (.laneChange l L.condition.reported .faulted cause :: L.completions l .laneFault).foldl
          ReportQueue.handOver s.reports } := by
  subst h
  simp only [enterFaulted]
  split
  · rename_i hc
    rw [completeQueued_eq _ rfl]
    simp [changeCondition, State.onLane, resetRound, Lane.completions, Lane.onRound]
    simp [RoundState.abandoned]
  · rename_i hc
    rw [completeQueued_eq _ rfl]
    simp [changeCondition, State.onLane, Lane.completions]

theorem OnlyLane.enterFaulted (l : LaneId) (s : State) (cause : Cause) : OnlyLane l s (enterFaulted l cause s) := by
  rw [enterFaulted_eq cause rfl]
  exact .setLane_reports _ rfl rfl

theorem OnlyLane.leaveFaulted (l : LaneId) (s : State) : OnlyLane l s (leaveFaulted l s) :=
  (OnlyLane.onLane rfl rfl).trans (.enterResume ..)

/-! ## Endings -/

/-- Slot records may differ, and reports have been handed over; nothing else has changed. -/
structure SlotsOnly (s t : State) : Prop where
  lanes : t.lanes = s.lanes
  routes : t.routes = s.routes
  nextHandle : t.nextHandle = s.nextHandle
  hli : t.hli = s.hli
  pending : t.pending = s.pending
  reports : ∃ rs : List Report, t.reports = rs.foldl ReportQueue.handOver s.reports

theorem SlotsOnly.refl (s : State) : SlotsOnly s s := ⟨rfl, rfl, rfl, rfl, rfl, [], rfl⟩

theorem SlotsOnly.trans (h : SlotsOnly s t) (k : SlotsOnly t u) : SlotsOnly s u where
  lanes := k.lanes.trans h.lanes
  routes := k.routes.trans h.routes
  nextHandle := k.nextHandle.trans h.nextHandle
  hli := k.hli.trans h.hli
  pending := k.pending.trans h.pending
  reports := by
    obtain ⟨a, ha⟩ := h.reports
    obtain ⟨b, hb⟩ := k.reports
    exact ⟨a ++ b, by rw [hb, ha, List.foldl_append]⟩

theorem SlotsOnly.setSlot (s : State) (r : SlotRef) (x : SlotRecord) : SlotsOnly s (s.setSlot r x) :=
  ⟨rfl, rfl, rfl, rfl, rfl, [], rfl⟩

theorem SlotsOnly.report (s : State) (r : Report) : SlotsOnly s (s.report r) := ⟨rfl, rfl, rfl, rfl, rfl, [r], rfl⟩

theorem SlotsOnly.onlyLane (h : SlotsOnly s t) (l : LaneId) : OnlyLane l s t := by
  have hl : ∀ m, t.lane m = s.lane m := fun m => by simp only [State.lane, h.lanes]
  obtain ⟨rs, hr⟩ := h.reports
  exact ⟨fun m _ => hl m, by rw [hl], by rw [hl], by rw [hr]; simp, h.routes, h.nextHandle, h.hli, h.pending⟩

theorem SlotsOnly.copyRoute (data : List Byte) (s : State) (t : Route) : SlotsOnly s (copyRoute data s t) := by
  unfold Machine.copyRoute
  split
  · split
    · exact .setSlot ..
    · exact .refl s
  · exact .refl s

theorem SlotsOnly.feedRoutes (src : SlotRef) (data : List Byte) (s : State) : SlotsOnly s (feedRoutes src data s) := by
  unfold Machine.feedRoutes
  generalize s.routeList.filter (fun t => t.src = src) = ts
  induction ts generalizing s with
  | nil => exact .refl s
  | cons t ts ih => exact (SlotsOnly.copyRoute data s t).trans (ih _)

/-- The flag that the Slot Table settles is the one that the statements speak of (R16). -/
theorem settledBacklog_eq (old : Bool) (o : TxOutcome) (p : PendingResult) (followUp : Bool) :
    settledBacklog old o p followUp = backlogAfter old o p followUp := by
  cases o <;> cases p <;> cases followUp <;> simp [settledBacklog, backlogAfter]

/-- Taking an ending changes slot records, and hands over reports. -/
theorem SlotsOnly.takeEnding (ref : SlotRef) (o : TxOutcome) (d : Delivery) (p : PendingResult) (followUp : Bool) (s : State) :
    SlotsOnly s (takeEnding ref o d p followUp s) := by
  have hif : ∀ (c : Prop) [Decidable c] (u : State) (r : Report), SlotsOnly u (if c then u.report r else u) := by
    intro c _ u r
    split
    · exact .report ..
    · exact .refl u
  unfold Machine.takeEnding
  split
  · exact .refl s
  · unfold endPolled
    split
    · exact (((SlotsOnly.setSlot ..).trans (hif ..)).trans (hif ..)).trans (.feedRoutes ..)
    · unfold missPolled
      simp only
      split
      · split
        · exact (SlotsOnly.setSlot ..).trans (.report ..)
        · exact .setSlot ..
      · exact .setSlot ..
    · exact .setSlot ..
  · unfold endContended
    split
    · exact ((SlotsOnly.setSlot ..).trans (hif ..)).trans (.feedRoutes ..)
    · exact .setSlot ..
  · exact .setSlot ..

theorem OnlyLane.takeEnding (l : LaneId) (ref : SlotRef) (o : TxOutcome) (d : Delivery) (p : PendingResult) (followUp : Bool)
    (s : State) : OnlyLane l s (takeEnding ref o d p followUp s) := (SlotsOnly.takeEnding ref o d p followUp s).onlyLane l

theorem OnlyLane.captureFault (l : LaneId) (o : TxOutcome) (slot : SlotId) (cell bit : Nat) (s : State) :
    OnlyLane l s (captureFault l o slot cell bit s) := by
  unfold Machine.captureFault
  split
  · split
    · exact (OnlyLane.onLane rfl rfl).trans (.report ..)
    · exact .onLane rfl rfl
  · exact .refl ..

theorem OnlyLane.completeOneShot (l : LaneId) (t : Transaction) (o : TxOutcome) (s : State) :
    OnlyLane l s (completeOneShot l t o s) := by
  unfold Machine.completeOneShot
  split
  · exact .refl ..
  · split <;> exact .report ..

theorem OnlyLane.markWorked (l : LaneId) (s : State) : OnlyLane l s (markWorked l s) := by
  unfold Machine.markWorked
  refine .onLane ?_ ?_ <;> split <;> rfl

theorem OnlyLane.swapIfEmpty (l : LaneId) (s : State) : OnlyLane l s (swapIfEmpty l s) := by
  unfold Machine.swapIfEmpty
  split
  · exact .swapStaged ..
  · exact .refl ..

theorem OnlyLane.actOnCondition (l : LaneId) (t : Transaction) (o : TxOutcome) (followUp : Bool) (s : State) :
    OnlyLane l s (actOnCondition l t o followUp s) := by
  have h : OnlyLane l s (Machine.markWorked l (s.onLane l fun L => { L with transaction := none })) :=
    (OnlyLane.onLane rfl rfl).trans (.markWorked ..)
  refine h.trans ?_
  unfold Machine.actOnCondition
  simp only
  split
  · exact .begin ..
  · split
    · exact .enterFaulted ..
    · split
      · exact .enterFaulted ..
      · split
        · exact (OnlyLane.swapIfEmpty ..).trans (.choose ..)
        · exact (OnlyLane.resetRound ..).trans (.enterHalted ..)
        · split
          · exact .refl ..
          · exact .begin ..
        all_goals exact .refl ..

/-- The ending of a transaction leaves alone everything that a lane event leaves alone. -/
theorem OnlyLane.endTransaction (l : LaneId) (o : TxOutcome) (cell bit : Nat) (s : State) :
    OnlyLane l s (endTransaction l o cell bit s) := by
  unfold Machine.endTransaction
  split
  · exact .refl ..
  · have h1 : ∀ u, OnlyLane l u (Machine.settleLine l o u) := fun u => .onLane rfl rfl
    have h2 : ∀ u, OnlyLane l u (Machine.countEnding l o u) := fun u => .onLane rfl rfl
    exact (((((h1 _).trans (.takeEnding ..)).trans (h2 _)).trans (.captureFault ..)).trans (.completeOneShot ..)).trans
      (.actOnCondition ..)

end Sys2Proof.Machine
end

