-- ==== Sys2Proof/WellFormed.lean ====
section
/-!
DEFINITION. Which commands are well formed: what the outside supplies with a command is something the outside can supply.
-/

namespace Sys2Proof

/-- A body that a frame can carry (R152). -/
def bodyFits (body : List Byte) : Bool := body.length ≤ 64

/-- A well-formed command. -/
def Instr.wf : Instr → Bool
  | .powerOnReset _ | .pinReset _ => true
  | .goodFrame bytes => ((readBytes bytes).bind parseFrame).isSome
  | .frameDiscard found =>
    match linkByte found.levels with
    | none => true
    | some b => found.isLength && !lengthByteOk b
  | .crcMismatch bytes => (readBytes bytes).any crcFails
  | .frameGapTimeout | .hostSilenceBegin | .sendReady | .sendReply | .sendReport | .frameEnd | .frameStartByte _ => true
  | .unknownRequest kind _ body => bodyFits body && !requestCodes.contains kind
  | .hello _ body | .softReset _ body | .linkReset _ body | .readLinkStatus _ body | .setSilenceLimit _ body
  | .configLane _ body | .laneStart _ body | .laneHalt _ body | .laneSleep _ body | .laneWake _ body
  | .readLaneStatus _ body | .clearCapture _ body | .defineSlot _ body | .clearSlot _ body | .writeSlot _ body
  | .readSlot _ body | .setFailsafe _ body | .schedOpen _ body | .schedAdd _ body | .schedCommit _ body
  | .schedDiscard _ body | .readSchedule _ body | .sendOnce _ body | .withdraw _ body | .routeSet _ body
  | .routeClear _ body | .readRoutes _ body | .reportCredit _ body | .reportAck _ body => bodyFits body
  | .gapWaitComplete _ | .callComplete _ | .responseTimeout _ | .tagCellReceived _ _ | .headerCellReceived _ _
  | .dataCellReceived _ _ | .checkCellReceived _ _ | .gapTimeout _ | .pendingWindowEnd _ _ | .publishComplete _ => true
  | .readbackError _ ahead _ => ahead < 140
  | .stuckFault _ | .pauseComplete _ | .sleepReleaseComplete _ | .sleepReleaseWake _ => true
  | .responderWake _ run => 1 ≤ run && run < 30
  | .wakePulseEnd _ | .wakeSettleComplete _ | .recoveryQuietComplete _ | .responseStartBit _ _ | .dominantBitTime _ _ => true

end Sys2Proof
end

