-- ==== Sys2Proof/Tests/Slice0.lean ====
section
/-!
SUPPORT. Tests of single steps whose expected values come from the manual, and for every statement the states and operands that meet its
hypotheses, clause by clause.
-/

namespace Sys2Proof.Tests

-- One theorem at a time: the kernel evaluations below, all at once, would ask for too many threads.
set_option Elab.async false

open Sys2Proof Sys2Proof.Machine

/-! ## States to test with -/

/-- The part after reset, with lane 0 changed. -/
def lane0 (f : Lane → Lane) (s : State := State.reset) : State := s.onLane 0 f

/-- Lane 0 in a condition. -/
def inCondition (c : Condition) : State := lane0 fun L => { L with condition := c }

/-- A state whose receive buffer holds one frame. -/
def taking (f : Frame) (s : State := State.reset) : State := s.onHli fun h => { h with buffer := [f] }

/-- A polled slot, length UP_TO 4, mode ON_CHANGE, absence limit 3, with no data. -/
def polledRec : PolledRec :=
  { rule := .upTo 4, mode := .onChange, absenceLimit := 3, data := none, seq := 0, attention := false, lastOutcome := none
    missCount := 0, presence := .present, skipCount := 0 }

/-- A polled slot of EXACT 2. -/
def exactRec : PolledRec := { polledRec with rule := .exact 2 }

/-- A contended slot with budget 3. -/
def contendedRec : ContendedRec :=
  { rule := .upTo 4, mode := .onChange, budget := 3, data := none, seq := 0, lastTag := none, attention := false
    lastOutcome := none, backlog := false }

/-- A published slot of two bytes that holds data and failsafe data. -/
def publishedRec : PublishedRec :=
  { length := 2, data := some [1, 2], seq := 255, lastOutcome := none, failsafe := some [9, 9], failsafeActive := false }

/-- Lane 0 with slot 1 polled UP_TO 4, slot 2 polled EXACT 2, slot 3 contended, slots 4 and 5 published, and a route from slot 2 to slot 5. -/
def tables : State :=
  ((((((State.reset.setSlot ⟨0, 1⟩ (.polled polledRec)).setSlot ⟨0, 2⟩ (.polled exactRec)).setSlot ⟨0, 3⟩
    (.contended contendedRec)).setSlot ⟨0, 4⟩ (.published publishedRec)).setSlot ⟨0, 5⟩ (.published publishedRec)).setRoute 15
    (some { src := ⟨0, 2⟩, dst := ⟨0, 5⟩, mode := .always }))

/-- A transaction on slot 1 or 3 of lane 0, as it begins. -/
def started (kind : CallKind) (phase : Phase) : Transaction :=
  { source := .scheduled, oneShot := none, slot := if kind = .contended then 3 else if kind = .polled then 1 else 4, kind, phase
    allowance := if kind = .contended then some 3 else none, followUpsForbidden := false, sendData := none, tag := none
    header := none, data := [], pendingResult := .notSampled, checkMatched := false }

/-- Lane 0 in a condition with a transaction in progress. -/
def calling (t : Transaction) (c : Condition := .running) (s : State := tables) : State :=
  lane0 (s := s) fun L =>
    { L with
      condition := c, transaction := some t
      line := { L.line with driving := t.phase == .call || t.phase == .send, position := some (0, 0) } }

/-- The line of lane 0 changed. -/
def onLine0 (f : LineState → LineState) (s : State) : State := lane0 (s := s) fun L => L.onLine f

/-- A bit time that reads dominant, and one that reads recessive, at all three samples. -/
def low : Samples 1 := ⟨0, 0, 0⟩
def high : Samples 1 := ⟨1, 1, 1⟩

/-- A polled response received whole but for its check cell. -/
def received (data : List Byte) : Transaction := { started .polled .receive with header := some ⟨data.length, false⟩, data }

/-- A cell as it is sent: recessive stop bit, the same level at all three samples. -/
def sent (v : Byte) : Samples 9 := ⟨1#1 ++ v, 1#1 ++ v, 1#1 ++ v⟩

/-- A part of the state that a command leaves. -/
def after {α : Type} (c : Instr) (s : State) (f : State → α) : Option α :=
  match exec c s with
  | .next t => some (f t)
  | .fault _ | .refused _ => none

/-- The status and fields of the newest reply. -/
def answer (s : State) : Option (Status × List Byte) := s.hli.replies.getLast?.map fun r => (r.status, r.fields)

/-- A part of the state that a request leaves, its frame the only one in the receive buffer. -/
def asked {α : Type} (c : Instr) (s : State) (f : State → α) : Option α := c.frame.bind fun x => after c (taking x s) f

/-- The status and fields with which a request is answered. -/
def reply (c : Instr) (s : State := tables) : Option (Status × List Byte) := (asked c s answer).join

/-- The reports that wait after a command, newest last. -/
def reports (c : Instr) (s : State) : Option (List Report) := after c s fun t => t.reports.unsent

/-- The reports that wait after a request. -/
def reportsOf (c : Instr) (s : State) : Option (List Report) := asked c s fun t => t.reports.unsent

/-! ## Well-formedness: what the outside cannot supply is refused -/

theorem test_wf_frame_with_short_tail : (Instr.goodFrame ([2, 1, 1].map linkLevels)).wf = false := by decide
theorem test_wf_frame_with_bad_byte : (Instr.crcMismatch ([2, 1, 1, 0].map linkLevels ++ [0])).wf = false := by decide +kernel
theorem test_wf_length_byte_in_range : (Instr.frameDiscard ⟨true, linkLevels 66⟩).wf = false := by decide
theorem test_wf_length_byte_out_of_range : (Instr.frameDiscard ⟨true, linkLevels 67⟩).wf = true := by decide
theorem test_wf_later_byte_has_no_fault : (Instr.frameDiscard ⟨false, linkLevels 67⟩).wf = false := by decide
theorem test_wf_good_frame_is_no_mismatch : (Instr.crcMismatch ((Frame.tail ⟨1, 1, []⟩).map linkLevels)).wf = false := by
  decide +kernel
theorem test_wf_catalogue_code_is_known : (Instr.unknownRequest 0x39 1 []).wf = false := by decide
theorem test_wf_body_of_65_bytes : (Instr.hello 1 (List.replicate 65 0)).wf = false := by decide +kernel
theorem test_wf_bit_behind_a_publish : (Instr.readbackError 0 140 high).wf = false := by decide
theorem test_wf_run_of_30 : (Instr.responderWake 0 30).wf = false := by decide

/-! ## Cells, checks and frames (chapters 2, 9 and 11) -/

/-- The worked example of R31: slot 3 has check value 2. -/
theorem test_call_cell_of_slot_3 : numberCell 3 = 0x43 := by decide
/-- Lane cells of chapter 11: a header of length 0 is 0xE0 and one of length 1 is 0xC1. -/
theorem test_headers_of_length_0_and_1 : headerCell 0 false = 0xE0 ∧ headerCell 1 false = 0xC1 := by decide
/-- Worked example: check values. The check cell of an empty response on slot 3 is 0x51. -/
theorem test_check_of_empty_response_on_slot_3 : crc8 3 [0xE0] = 0x51 := by decide +kernel
/-- R45: the sleep call sends header, 0x5A and 0x22. -/
theorem test_sleep_call_cells : publishCells 0 [0x5A] = [0xC1, 0x5A, 0x22] := by decide +kernel
/-- R36: a header with a wrong check, and one of length 13, are refused; R35: tag 0 is refused. -/
theorem test_bad_headers_and_tag_0 : headerOfCell 0xE1 = none ∧ headerOfCell 0x4D = none ∧ tagOfCell (numberCell 0) = none := by
  decide
/-- R160: the body CRC of an empty body is 0xFFFF. -/
theorem test_crc16_of_nothing : crc16 [] = 0xFFFF := by decide
/-- The published check value of this CRC (polynomial 0x1021, initial value 0xFFFF) over the digits 1 to 9; not from the manual. -/
theorem test_crc16_check_value : crc16 [0x31, 0x32, 0x33, 0x34, 0x35, 0x36, 0x37, 0x38, 0x39] = 0x29B1 := by decide +kernel
/-- R152: the length byte covers kind, tag and body, and the CRC goes high byte first. -/
theorem test_frame_of_hello : (Frame.bytes ⟨0x01, 0x07, []⟩).take 4 = [0xC3, 2, 0x01, 0x07] ∧ (Frame.bytes ⟨1, 7, []⟩).length = 6 := by
  decide +kernel
/-- R152: a low start bit, the data bits of 0xC3 least significant first, a high stop bit; R153: a low stop bit makes a bad byte. -/
theorem test_link_byte : byteBits 0xC3 = [false, true, true, false, false, false, false, true, true, true]
    ∧ linkByte (1#1 ++ 0xC3#8) = some 0xC3 ∧ linkByte (0#1 ++ 0xC3#8) = none := by decide
/-- R30 and R31: 12 dominant bit times and 1 recessive, then start bit, the call cell 0x43 of slot 3 and stop bit. -/
theorem test_call_levels : (started .contended .call).levelsSent
    = List.replicate 12 false ++ [true] ++ [false, true, true, false, false, false, false, true, false, true] := by decide
/-- R25: with the filter on the majority of the samples counts, with it off the centre. -/
theorem test_samples : (Samples.mk 0#1 1#1 0#1).levels true = 0#1 ∧ (Samples.mk 0#1 1#1 0#1).levels false = 1#1 := by decide

/-! ## Resets and the host link (chapters 0, 8 and 9) -/

/-- Signals: HRATE 11 selects 921600 baud; R7: every slot of 1 to 31 is UNDEFINED after a reset. -/
theorem test_power_on_reset : after (.powerOnReset 3) tables (fun t => (t.hli.rate, t.hli.ready, t.slot ⟨0, 1⟩))
    = some (.baud921600, some .power, .undefined) := by decide +kernel
/-- R164: a pin reset makes READY wait with cause PIN once the READY of the power-on reset has gone. -/
theorem test_pin_reset : after (.pinReset 1) (tables.onHli fun h => { h with ready := none }) (fun t => (t.hli.rate, t.hli.ready))
    = some (.baud230400, some .pin) := by decide +kernel
/-- R155: the third good frame finds the buffer full. -/
theorem test_good_frame_overrun :
    after (.goodFrame ((Frame.tail ⟨1, 9, []⟩).map linkLevels))
      (State.reset.onHli fun h => { h with receiver := .insideFrame, buffer := [⟨1, 7, []⟩, ⟨1, 8, []⟩] })
      (fun t => (t.hli.buffer.map Frame.tag, t.hli.counts.overrun, t.hli.receiver)) = some ([7, 8], 1, .hunting) := by decide +kernel
/-- R170: a good frame ends HOST_SILENT with a HOST_SILENCE end report and restarts the timer. -/
theorem test_good_frame_ends_silence :
    after (.goodFrame ((Frame.tail ⟨1, 9, []⟩).map linkLevels))
      (State.reset.onHli fun h => { h with receiver := .insideFrame, hostSilent := true, silenceLimit := 5 })
      (fun t => (t.hli.hostSilent, t.hli.silenceTimer, t.reports.unsent)) = some (false, .running 0, [.hostSilence false]) := by
  decide +kernel
/-- R153, R154: 0xC3 begins a frame; a length byte of 0xC3 is itself a new start byte. -/
theorem test_frame_start_byte :
    after (.frameStartByte (linkLevels 0xC3)) State.reset (fun t => t.hli.receiver) = some .insideFrame
      ∧ after (.frameStartByte 0x0C3) State.reset (fun t => t.hli.receiver) = some .hunting := by decide
theorem test_frame_discard_of_start_byte :
    after (.frameDiscard ⟨true, linkLevels 0xC3⟩) (State.reset.onHli fun h => { h with receiver := .insideFrame })
      (fun t => (t.hli.receiver, t.hli.counts.framing)) = some (.insideFrame, 1) := by decide
/-- R154, R167: the CRC count and the framing count stop at 65535. -/
theorem test_crc_mismatch_saturates :
    after (.crcMismatch ([2, 1, 1, 0, 0].map linkLevels))
      (State.reset.onHli fun h => { h with receiver := .insideFrame, counts := { h.counts with crc := 65535 } })
      (fun t => (t.hli.counts.crc, t.hli.counts.framing, t.hli.receiver)) = some (65535, 0, .hunting) := by decide +kernel
theorem test_frame_gap_timeout :
    after .frameGapTimeout (State.reset.onHli fun h => { h with receiver := .insideFrame })
      (fun t => (t.hli.counts.framing, t.hli.receiver)) = some (1, .hunting) := by decide
/-- R21, R114: slot 4 takes its failsafe data, its sequence wraps from 255 to 0 and its flag is set; slot 5 is route-fed. -/
theorem test_host_silence_begin :
    after .hostSilenceBegin (tables.onHli fun h => { h with silenceLimit := 1, silenceTimer := .running 1 })
      (fun t => (t.slot ⟨0, 4⟩, t.slot ⟨0, 5⟩)) = some (.published { publishedRec with data := some [9, 9], seq := 0, failsafeActive := true },
        .published publishedRec) := by decide +kernel
/-- R162: READY goes ahead of a reply; a reply frees its place; a report needs credit and takes the next number, after 65535 comes 1 (R143). -/
theorem test_send_ready : after .sendReady State.reset (fun t => (t.hli.transmitting, t.hli.ready)) = some (some (.ready .power), some .power) := by
  decide
theorem test_send_reply_frees_its_place :
    after .sendReply (State.reset.onHli fun h => { h with ready := none, replies := [⟨7, 1, .ok, []⟩, ⟨8, 1, .ok, []⟩] })
      (fun t => t.hli.replies.map Reply.tag) = some [8] := by decide
theorem test_send_report_wraps_its_number :
    after .sendReport
      { (State.reset.onHli fun h => { h with ready := none, credit := 2, nextReportSeq := 65535 }) with
        reports := { inFlight := [], unsent := [.hostSilence true], lostCount := 0, lostKinds := 0 } }
      (fun t => (t.reports.inFlight, t.hli.credit, t.hli.nextReportSeq)) = some ([⟨65535, .hostSilence true⟩], 1, 1) := by decide
/-- R164: READY stops waiting at the end of its frame. R165: SOFT_RESET takes effect at the end of its reply. -/
theorem test_frame_end_of_ready :
    after .frameEnd (State.reset.onHli fun h => { h with transmitting := some (.ready .power) }) (fun t => t.hli.ready) = some none := by
  decide
theorem test_frame_end_of_soft_reset :
    after .frameEnd
      (tables.onHli fun h =>
        { h with ready := none, rate := .baud460800, handlerStopped := true, transmitting := some (.reply ⟨7, 2, .ok, []⟩) })
      (fun t => (t.hli.ready, t.hli.rate, t.hli.handlerStopped, t.slot ⟨0, 4⟩)) = some (some .soft, .baud460800, false, .undefined) := by
  decide +kernel

/-- Report bodies: tag 12, attention in bit 0 and backlog in bit 1 of the flags; a ONE_SHOT_DONE without data sends length 0xFF. -/
theorem test_report_frames :
    OutFrame.frame (.report ⟨258, .slotUpdate ⟨2, 9⟩ { seq := 4, tag := some 12, attention := false, backlog := true, merged := 0, data := [1, 0x66] }⟩)
      = ⟨0x81, 0, [1, 2, 1, 2, 9, 4, 12, 2, 0, 2, 1, 0x66]⟩
      ∧ OutFrame.frame (.report ⟨1, .oneShotDone 1 203 .laneAsleep none none⟩) = ⟨0x81, 0, [5, 1, 0, 1, 203, 0, 0x11, 0, 0xFF]⟩ := by
  decide +kernel

/-! ## Requests (chapter 10) -/

/-- R157: a kind of 0x80 or above is an unknown code, answered so whatever its body. -/
theorem test_unknown_request : reply (.unknownRequest 0x80 7 [1, 2, 3]) = some (.unknownRequest, []) := by decide +kernel
/-- R172: the sizes of the part; the family code is 0x34. -/
theorem test_hello :
    reply (.hello 7 []) = some (.ok, [0x34, Config.revision, 4, 32, 96, 48, 8, 16, 48, 16, 8, 2, 4]) := by rfl
theorem test_hello_with_a_body : reply (.hello 7 [0]) = some (.badLength, []) := by decide +kernel
theorem test_soft_reset_stops_the_handler : asked (.softReset 7 []) tables (fun t => (t.hli.handlerStopped, t.slot ⟨0, 4⟩))
    = some (true, .published publishedRec) := by decide +kernel
/-- An update of lane 1 slot 7, as the worked sequence of chapter 8 shows them. -/
def update (seq : Byte) (merged : Nat) : Report :=
  .slotUpdate ⟨1, 7⟩ { seq, tag := none, attention := false, backlog := false, merged, data := [] }

/-- Worked sequence (chapter 8), step 2 of LINK_RESET: the update in flight and the pending one become one, merged count 1 + 0 + 1. -/
theorem test_link_reset_merges :
    asked (.linkReset 7 [])
      { (State.reset.onHli fun h => { h with nextReportSeq := 5 }) with
        reports := { inFlight := [⟨3, update 23 1⟩, ⟨4, .slotPresence ⟨0, 4⟩ .absent⟩], unsent := [update 24 0], lostCount := 0, lostKinds := 0 } }
      (fun t => (t.reports.unsent, t.hli.nextReportSeq))
      = some ([update 24 2, .slotPresence ⟨0, 4⟩ .absent], 1) := by decide +kernel
theorem test_read_link_status_clears :
    let s := tables.onHli fun h => { h with counts := ⟨258, 1, 2, 3⟩, silenceLimit := 9, hostSilent := true }
    reply (.readLinkStatus 7 [1]) s = some (.ok, [2, 1, 1, 0, 2, 0, 3, 0, 9, 1])
      ∧ asked (.readLinkStatus 7 [1]) s (fun t => t.hli.counts) = some ⟨0, 0, 0, 0⟩ := by decide +kernel
theorem test_set_silence_limit_starts_the_timer :
    asked (.setSilenceLimit 7 [3]) tables (fun t => (t.hli.silenceLimit, t.hli.silenceTimer)) = some (3, .running 0) := by decide +kernel
/-- R177: the example of the order of checks: wake settle 10 is refused before the condition is looked at. -/
theorem test_config_lane_order :
    reply (.configLane 7 [0, 3, 1, 10, 3, 4, 8, 1, 16, 10]) (inCondition .running) = some (.badValue, [])
      ∧ reply (.configLane 7 [0, 3, 1, 10, 3, 4, 8, 1, 16, 64]) (inCondition .running) = some (.badState, []) := by decide +kernel
/-- R83, R84, R116: the staged schedule is swapped in on entry to RUNNING, after the report of the change. -/
theorem test_lane_start_swaps :
    reportsOf (.laneStart 7 [0])
      (lane0 (s := tables) fun L => { L with schedules := { L.schedules with staged := some [⟨1, 0, 0⟩] }, round := { L.round with counter := 6 } })
      = some [.laneChange 0 .halted .running .request, .scheduleSwapped 0 6] := by decide +kernel
/-- R117: with a transaction in progress the lane enters HALTING, with no report. -/
theorem test_lane_halt_waits_for_the_transaction :
    asked (.laneHalt 7 [0]) (calling (started .polled .receive))
      (fun t => ((t.lane 0).condition, t.reports.unsent, ((t.lane 0).transaction.map Transaction.followUpsForbidden)))
      = some (.halting, [], some true) := by decide +kernel
/-- R118: the sleep call begins at once on a HALTED lane. -/
theorem test_lane_sleep_begins_the_sleep_call :
    asked (.laneSleep 7 [0]) tables (fun t => ((t.lane 0).condition, ((t.lane 0).transaction.map Transaction.sendData).join))
      = some (.sleepPending, some [0x5A]) := by decide +kernel
theorem test_lane_wake : asked (.laneWake 7 [0]) (inCondition .sleeping) (fun t => ((t.lane 0).condition, (t.lane 0).ltxHigh))
    = some (.waking, false) := by decide +kernel
theorem test_lane_wake_of_a_running_lane : reply (.laneWake 7 [0]) (inCondition .running) = some (.badState, []) := by decide +kernel
/-- R179: the fields of the reply table of a lane after reset. -/
theorem test_read_lane_status :
    reply (.readLaneStatus 7 [0, 0])
      = some (.ok, [0, 0, 0, 0, 0, 0, 0, 0, 0, 0, 0, 0xFF, 0xFF, 0xFF, 0xFF, 0xFF, 0xFF, 0, 0, 0, 0xFF, 0xFF]) := by decide +kernel
/-- R57, and the capture of T3 in chapter 3's worked sequence. -/
theorem test_clear_capture :
    let s := lane0 fun L => { L with capture := some { outcome := .checkError, slot := 9, cell := 5, bit := 9, round := 41 } }
    reply (.clearCapture 7 [0]) s = some (.ok, [1, 5, 9, 5, 9, 41, 0, 0])
      ∧ asked (.clearCapture 7 [0]) s (fun t => (t.lane 0).capture) = some none := by decide +kernel
/-- The example of the order of checks: budget 9 is refused before the references are looked at, and budget 255 meets them. -/
theorem test_define_slot_order :
    reply (.defineSlot 7 [0, 2, 2, 0, 2, 2, 9]) = some (.badValue, []) ∧ reply (.defineSlot 7 [0, 2, 2, 0, 2, 2, 255]) = some (.inUse, []) := by
  decide +kernel
/-- R5: a redefined slot starts afresh; parameter 255 gives the default budget 3. -/
theorem test_define_slot_afresh :
    asked (.defineSlot 7 [0, 4, 2, 1, 4, 1, 255]) tables (fun t => t.slot ⟨0, 4⟩) = some (.contended contendedRec) := by decide +kernel
theorem test_clear_slot :
    asked (.clearSlot 7 [0, 1]) tables (fun t => t.slot ⟨0, 1⟩) = some .undefined ∧ reply (.clearSlot 7 [0, 2]) = some (.inUse, []) := by
  decide +kernel
/-- The example of the order of checks: a wrong number of bytes for a route-fed slot is refused with ROUTED. R17: the sequence wraps. -/
theorem test_write_slot :
    reply (.writeSlot 7 [0, 5, 1]) = some (.routed, []) ∧ reply (.writeSlot 7 [0, 4, 7, 8]) = some (.ok, [0]) := by decide +kernel
/-- R184, R196: a field the kind does not hold is 0xFF. -/
theorem test_read_slot :
    reply (.readSlot 7 [0, 5])
      = some (.ok, [3, 0, 2, 0, 0xFF, 255, 0xFF, 0, 0xFF, 0xFF, 0xFF, 0xFF, 0xFF, 0, 1, 2, 1, 2, 2, 9, 9])
      ∧ reply (.readSlot 7 [0, 3]) = some (.ok, [2, 1, 4, 1, 3, 0, 0, 0, 0xFF, 0xFF, 0xFF, 0xFF, 0, 0xFF, 0, 0xFF, 0xFF]) := by decide +kernel
/-- R20, R185: a setting while the failsafe is active replaces the current data too. -/
theorem test_set_failsafe_in_force :
    let s := tables.setSlot ⟨0, 4⟩ (.published { publishedRec with failsafeActive := true })
    asked (.setFailsafe 7 [0, 4, 0, 3, 4]) s (fun t => (t.slot ⟨0, 4⟩, answer t)) = some (.published
      { publishedRec with data := some [3, 4], seq := 0, failsafe := some [3, 4], failsafeActive := true }, some (.ok, [0, 1])) := by
  decide +kernel
theorem test_set_failsafe_clears_with_no_data :
    reply (.setFailsafe 7 [0, 4, 1, 0]) = some (.badValue, []) ∧ reply (.setFailsafe 7 [0, 4, 1]) = some (.ok, [255, 0]) := by decide +kernel
/-- R70, R73: opening returns an earlier builder's entries to the pool first. -/
theorem test_sched_open_returns_entries :
    reply (.schedOpen 7 [0])
      (lane0 fun L => { L with schedules := { builder := some [⟨1, 0, 0⟩, ⟨1, 0, 0⟩], staged := none, active := [⟨1, 0, 0⟩] } })
      = some (.ok, [95]) := by decide +kernel
/-- Request bodies: the exponent stands in bits 0 to 3 and the phase in bits 4 to 7; R74: a phase not less than the divider is refused. -/
theorem test_sched_add :
    let s := lane0 (s := tables) fun L => { L with schedules := { L.schedules with builder := some [] } }
    asked (.schedAdd 7 [0, 1, 0x32]) s (fun t => (t.lane 0).schedules.builder) = some (some [⟨1, 2, 3⟩])
      ∧ reply (.schedAdd 7 [0, 1, 0x42]) s = some (.badValue, []) := by decide +kernel
theorem test_sched_add_without_builder : reply (.schedAdd 7 [0, 1, 0]) = some (.notOpen, []) := by decide +kernel
theorem test_sched_commit_swaps_while_halted :
    let s := lane0 (s := tables) fun L => { L with schedules := { L.schedules with builder := some [⟨1, 0, 0⟩] } }
    reply (.schedCommit 7 [0]) s = some (.ok, [1]) ∧ reportsOf (.schedCommit 7 [0]) s = some [.scheduleSwapped 0 0] := by decide +kernel
theorem test_sched_discard :
    reply (.schedDiscard 7 [0]) = some (.notOpen, [])
      ∧ reply (.schedDiscard 7 [0]) (lane0 fun L => { L with schedules := { L.schedules with builder := some [⟨1, 0, 0⟩] } })
        = some (.ok, [96]) := by decide +kernel
theorem test_read_schedule :
    let s := lane0 (s := tables) fun L => { L with schedules := { L.schedules with active := [⟨1, 0, 0⟩, ⟨2, 2, 3⟩] } }
    reply (.readSchedule 7 [0, 0, 1]) s = some (.ok, [1, 2, 1, 2, 0x32]) ∧ reply (.readSchedule 7 [0, 1, 0]) s = some (.ok, [0, 0, 0]) := by
  decide +kernel
/-- The worked sequence of chapter 5: the handle is the next one, 200, and the queue holds the record. -/
theorem test_send_once :
    let s := { calling (started .polled .receive) with nextHandle := 200 }
    reply (.sendOnce 7 [0, 4, 1, 2]) s = some (.ok, [200, 0, 1])
      ∧ asked (.sendOnce 7 [0, 4, 1, 2]) s (fun t => ((t.lane 0).oneShots, t.nextHandle))
        = some ([{ handle := 200, slot := 4, kind := .publish, data := some [1, 2] }], 201) := by decide +kernel
/-- The example of the order of checks: a SEND_ONCE that begins at once leaves queue length 0. -/
theorem test_send_once_begins_at_once :
    reply (.sendOnce 7 [0, 1]) (lane0 (s := tables) fun L => { L with condition := .running }) = some (.ok, [1, 0, 0]) := by decide +kernel
/-- The worked sequence of chapter 5: WITHDRAW of the running one-shot is too late, and of a queued one reports WITHDRAWN. -/
theorem test_withdraw :
    let s := calling { started .polled .receive with source := .oneShot, oneShot := some (200, .poll) }
      (s := lane0 (s := tables) fun L => { L with oneShots := [{ handle := 202, slot := 3, kind := .poll, data := none }] })
    reply (.withdraw 7 [200, 0]) s = some (.tooLate, [])
      ∧ reportsOf (.withdraw 7 [202, 0]) s = some [.oneShotDone 0 202 .withdrawn none none] := by decide +kernel
theorem test_withdraw_of_handle_0 : reply (.withdraw 7 [0, 0]) = some (.unknownHandle, []) := by decide +kernel
/-- R107, step 8: a destination of a route at another index; R108: a route at the same index may be replaced, with no copy. -/
theorem test_route_set :
    reply (.routeSet 7 [0, 0, 2, 0, 5, 0]) = some (.inUse, []) ∧ reply (.routeSet 7 [15, 0, 2, 0, 4, 1]) = some (.ok, [1]) := by
  decide +kernel
theorem test_route_clear :
    reply (.routeClear 7 [15]) = some (.ok, [1]) ∧ reply (.routeClear 7 [16]) = some (.badValue, []) := by decide +kernel
/-- Reply fields: source slot and lane, occupied in bit 7; destination slot and lane, mode in bit 7. -/
theorem test_read_routes : reply (.readRoutes 7 []) = some (.ok, List.replicate 30 0 ++ [0x82, 0x05]) := by decide +kernel
/-- The worked sequence of chapter 8: with 14 in flight, REPORT_CREDIT 4 gives credit 2. -/
theorem test_report_credit_is_lowered :
    reply (.reportCredit 7 [4])
      { State.reset with
        reports := { inFlight := (List.range 14).map fun i => ⟨103 + i, .hostSilence true⟩, unsent := [], lostCount := 0, lostKinds := 0 } }
      = some (.ok, [2, 14, 0]) := by decide +kernel
/-- The worked sequence of chapter 8: REPORT_ACK of the second in flight removes two and reports the loss; a number not in flight is BAD_ACK. -/
theorem test_report_ack :
    let s := { State.reset with
      reports := { inFlight := [⟨101, .hostSilence true⟩, ⟨102, .hostSilence false⟩, ⟨103, .hostSilence true⟩], unsent := [], lostCount := 3, lostKinds := 0x15 } }
    reply (.reportAck 7 [102, 0]) s = some (.ok, [2, 1]) ∧ reportsOf (.reportAck 7 [102, 0]) s = some [.reportsLost 3 0x15]
      ∧ reply (.reportAck 7 [9, 0]) s = some (.badAck, []) := by decide +kernel
/-- R161: a resend with the same tag, code and body is answered from the cache. -/
theorem test_duplicate_is_not_executed :
    asked (.schedOpen 7 [0]) (State.reset.onHli fun h => { h with cache := [⟨crc16 [0], ⟨7, 0x28, .ok, [95]⟩⟩] })
      (fun t => (answer t, (t.lane 0).schedules.builder, t.hli.counts.duplicate)) = some (some (.ok, [95]), none, 1) := by decide +kernel

/-! ## Lane events (chapters 1 to 7) -/

/-- R18: the call marker takes the snapshot of a scheduled publish. -/
theorem test_gap_wait_takes_the_snapshot :
    after (.gapWaitComplete 0) (calling (started .published .gap)) (fun t => (t.lane 0).transaction.map fun x => (x.phase, x.sendData))
      = some (some (.call, some [1, 2])) := by decide +kernel
theorem test_call_complete :
    after (.callComplete 0) (calling (started .polled .call)) (fun t => ((t.lane 0).transaction.map Transaction.phase, (t.lane 0).ltxHigh))
      = some (some .await, true)
      ∧ after (.callComplete 0) (calling (started .published .call)) (fun t => (t.lane 0).transaction.map Transaction.phase)
        = some (some .send) := by decide +kernel
/-- R12: with absence limit 3, the third NO_RESPONSE makes the slot ABSENT. -/
theorem test_response_timeout_makes_absent :
    reports (.responseTimeout 0)
      (calling (started .polled .await) (s := tables.setSlot ⟨0, 1⟩ (.polled { polledRec with missCount := 2 })))
      = some [.slotPresence ⟨0, 1⟩ .absent] := by decide +kernel
theorem test_response_start_bit :
    after (.responseStartBit 0 ⟨0, 0, 1⟩) (calling (started .polled .await)) (fun t => (t.lane 0).transaction.map Transaction.phase)
      = some (some .receive) := by decide +kernel
/-- R34: between cells a start bit that reads recessive is ignored. -/
theorem test_start_bit_between_cells :
    after (.responseStartBit 0 ⟨0, 1, 1⟩) (calling (received [1])) (fun t => t.lane 0) = some ((calling (received [1])).lane 0)
      ∧ after (.responseStartBit 0 ⟨0, 1, 0⟩) (calling (received [1])) (fun t => (t.lane 0).line.cell) = some (some []) := by
  decide +kernel
/-- Chapter 2's arbitration example: tag 12 is sent with check value 7. R35: tag 0 ends the transaction as TAG_ERROR. -/
theorem test_tag_cell :
    after (.tagCellReceived 0 (sent 0xEC)) (calling (started .contended .receive)) (fun t => (t.lane 0).transaction.map Transaction.tag)
      = some (some (some 12))
      ∧ after (.tagCellReceived 0 (sent 0x60)) (calling (started .contended .receive)) (fun t => ((t.lane 0).capture.map CaptureRecord.outcome))
        = some (some .tagError) := by decide +kernel
/-- R36: a good header whose length the rule refuses is LENGTH_MISMATCH; a dominant stop bit is FRAMING_ERROR whatever the cell (R33). -/
theorem test_header_cell :
    after (.headerCellReceived 0 (sent 0x45)) (calling (started .polled .receive)) (fun t => ((t.lane 0).capture.map CaptureRecord.outcome))
      = some (some .lengthMismatch)
      ∧ after (.headerCellReceived 0 ⟨0xE0, 0xE0, 0xE0⟩) (calling (started .polled .receive)) (fun t => ((t.lane 0).capture.map CaptureRecord.outcome))
        = some (some .framingError) := by decide +kernel
theorem test_header_with_attention :
    after (.headerCellReceived 0 (sent 0xD1)) (calling (started .polled .receive)) (fun t => ((t.lane 0).transaction.map Transaction.header))
      = some (some (some ⟨1, true⟩)) := by decide +kernel
theorem test_data_cell :
    after (.dataCellReceived 0 (sent 0x31)) (calling { started .polled .receive with header := some ⟨1, false⟩ })
      (fun t => ((t.lane 0).transaction.map Transaction.data)) = some (some [0x31]) := by decide +kernel
/-- Chapter 2's check values are for slot 3; an ON_CHANGE slot that held no data reports its first update (R10). -/
theorem test_check_cell_done :
    let s := calling { started .polled .receive with slot := 3, header := some ⟨0, false⟩ } (s := tables.setSlot ⟨0, 3⟩ (.polled polledRec))
    after (.checkCellReceived 0 (sent 0x51)) s (fun t => ((t.lane 0).counts.good, t.slot ⟨0, 3⟩))
      = some (1, .polled { polledRec with data := some [], seq := 1, lastOutcome := some .done })
      ∧ reports (.checkCellReceived 0 (sent 0x51)) s
        = some [.slotUpdate ⟨0, 3⟩ { seq := 1, tag := none, attention := false, backlog := false, merged := 0, data := [] }] := by
  decide +kernel
theorem test_gap_timeout :
    after (.gapTimeout 0) (calling { started .polled .receive with header := some ⟨1, false⟩ })
      (fun t => ((t.lane 0).capture.map fun c => (c.outcome, c.cell, c.bit), (t.lane 0).line.drainOwed)) = some (some (.gapTimeout, 2, 0), false) := by
  decide +kernel
/-- Chapter 3's worked sequence, T1: pending seen with allowance 2 begins a follow-up with allowance 1, and backlog stays 0. -/
theorem test_pending_window_begins_a_follow_up :
    after (.pendingWindowEnd 0 ⟨0, 0, 0⟩)
      (calling
        { started .contended .window with allowance := some 2, tag := some 12, header := some ⟨2, false⟩, data := [1, 0x64], checkMatched := true })
      (fun t => (((t.lane 0).transaction.map fun x => (x.source, x.phase, x.allowance)), t.reports.unsent))
      = some (some (.followUp, .gap, some 1),
        [.slotUpdate ⟨0, 3⟩ { seq := 1, tag := some 12, attention := false, backlog := false, merged := 0, data := [1, 0x64] }]) := by
  decide +kernel
/-- R15, R16: a call that nobody answers clears backlog, whatever its source; R43, R59: a follow-up that a stuck line ends leaves it. -/
theorem test_backlog_without_a_response : ∀ backlog : Bool,
    let s : Transaction → State := fun t => calling t .halting (tables.setSlot ⟨0, 3⟩ (.contended { contendedRec with backlog }))
    (∀ source ∈ [Source.scheduled, .oneShot, .followUp],
      after (.responseTimeout 0) (s { started .contended .await with source }) (fun t => t.slot ⟨0, 3⟩)
        = some (.contended { contendedRec with lastOutcome := some .noResponse, backlog := false }))
      ∧ after (.stuckFault 0) (s { started .contended .gap with source := .followUp }) (fun t => t.slot ⟨0, 3⟩)
        = some (.contended { contendedRec with lastOutcome := some .lineStuck, backlog }) := by decide +kernel
/-- The same, T5: follow-ups forbidden by LANE_HALT, so backlog 1 is reported and the lane enters HALTED. -/
theorem test_pending_window_with_follow_ups_forbidden :
    reports (.pendingWindowEnd 0 ⟨0, 0, 0⟩)
      (calling
        { started .contended .window with
          followUpsForbidden := true, tag := some 12, header := some ⟨2, false⟩, data := [1, 0x66], checkMatched := true } .halting)
      = some [.slotUpdate ⟨0, 3⟩ { seq := 1, tag := some 12, attention := false, backlog := true, merged := 0, data := [1, 0x66] },
        .laneChange 0 .running .halted .request] := by decide +kernel
/-- R51, R99: a one-shot PUBLISH ends DONE with no data in its report, and the slot keeps its data. -/
theorem test_publish_complete :
    after (.publishComplete 0)
      (calling { started .published .send with source := .oneShot, oneShot := some (201, .publish), sendData := some [7, 8] })
      (fun t => (t.reports.unsent, t.slot ⟨0, 4⟩))
      = some ([.oneShotDone 0 201 (.ended .done) none none], .published { publishedRec with lastOutcome := some .done }) := by decide +kernel
/-- R25, R41: a dominant bit whose centre sample alone is recessive reads as sent with the filter on, and mismatches with it off. -/
theorem test_readback_is_filtered :
    let s : Bool → State := fun filter => lane0 (s := calling (started .polled .call)) fun L => { L with config := { L.config with sampleFilter := filter } }
    after (.readbackError 0 0 ⟨0, 1, 0⟩) (s true) (fun _ => ()) = none
      ∧ after (.readbackError 0 0 ⟨0, 1, 0⟩) (s false) (fun t => (t.lane 0).capture.map fun c => (c.outcome, c.cell, c.bit))
        = some (some (.readbackError, 0, 0)) := by decide +kernel
/-- R27, R30, R41, R42: behind the twelfth bit of the marker LTXn is high at cell 0, bit 0; a stop bit of the call cell that reads dominant ends
the transaction at cell 0, bit 9. -/
theorem test_bits_of_a_call :
    let s : Nat → State := fun n => onLine0 (fun x => { x with sent := n }) (calling (started .polled .call))
    after (.dominantBitTime 0 low) (s 11) (fun t => ((t.lane 0).ltxHigh, (t.lane 0).line.position)) = some (true, some (0, 0))
      ∧ after (.dominantBitTime 0 low) (s 22) (fun t => (t.lane 0).capture.map fun c => (c.outcome, c.cell, c.bit))
        = some (some (.readbackError, 0, 9))
      ∧ after (.dominantBitTime 0 high) (s 22) (fun t => ((t.lane 0).transaction.map Transaction.phase, (t.lane 0).line.position))
        = some (some .await, some (1, 0)) := by decide +kernel
/-- R42, R51: the last bit of a publish of no bytes stands at cell 2, bit 9, and completes it. -/
theorem test_last_bit_of_a_publish :
    let t := { started .published .send with sendData := some [] }
    t.placeSent 19 = (2, 9)
      ∧ after (.dominantBitTime 0 high) (onLine0 (fun x => { x with sent := 19 }) (calling t))
          (fun u => (u.lane 0).counts.good) = some 1 := by decide +kernel
/-- R33, R36, R42: a header cell 0xE0 taken bit by bit: its third bit stands at bit 3, and its stop bit completes it. -/
theorem test_bits_of_a_header_cell :
    let s : List Bool → State := fun bits =>
      onLine0 (fun x => { x with position := some (1, bits.length), cell := some bits }) (calling (started .polled .receive))
    after (.dominantBitTime 0 low) (s [false, false]) (fun t => (t.lane 0).line.position) = some (some (1, 3))
      ∧ after (.dominantBitTime 0 high) (s [false, false, false, false, false, true, true, true])
          (fun t => ((t.lane 0).transaction.map Transaction.header, (t.lane 0).line.position))
        = some (some (some ⟨0, false⟩), some (2, 0)) := by decide +kernel
/-- R55, R126: the third READBACK_ERROR in a row takes the lane to FAULTED. -/
theorem test_third_readback_error :
    after (.readbackError 0 3 high)
      (lane0 (s := calling (started .polled .call)) fun L => { L with readbackRun := 2, capture := some ⟨.tagError, 3, 1, 9, 0⟩ })
      (fun t => ((t.lane 0).condition, (t.lane 0).readbackRun, (t.lane 0).line.drainOwed, t.reports.unsent))
      = some (.faulted, 0, true, [.laneChange 0 .running .faulted .readback]) := by decide +kernel
theorem test_stuck_fault_of_a_halted_lane :
    after (.stuckFault 0) State.reset (fun t => ((t.lane 0).condition, (t.lane 0).resume, t.reports.unsent))
      = some (.faulted, .halted, [.laneChange 0 .halted .faulted .stuck]) := by decide +kernel
/-- R19, R80: after a pause, an entry on a published slot without data is passed over, the round ends and a pause begins again. -/
theorem test_pause_complete :
    after (.pauseComplete 0)
      (lane0 (s := tables.setSlot ⟨0, 4⟩ (.published { publishedRec with data := none })) fun L =>
        { L with
          condition := .running, schedules := { L.schedules with active := [⟨4, 0, 0⟩] }, round := { L.round with pause := some 0, counter := 65535 } })
      (fun t => ((t.lane 0).round.counter, (t.lane 0).round.pause, (t.lane 0).transaction)) = some (0, some 0, none) := by decide +kernel
/-- R102: on entry to SLEEPING the queued records complete after the report of the change. -/
theorem test_sleep_release_complete :
    reports (.sleepReleaseComplete 0)
      (lane0 (s := inCondition .sleepPending) fun L => { L with oneShots := [{ handle := 203, slot := 4, kind := .poll, data := none }] })
      = some [.laneChange 0 .sleepPending .sleeping .request, .oneShotDone 0 203 .laneAsleep none none] := by decide +kernel
theorem test_sleep_release_wake :
    reports (.sleepReleaseWake 0) (inCondition .sleepPending) = some [.laneChange 0 .sleepPending .waking .busWake] := by decide +kernel
/-- R123: a run of 3 wakes the lane and a run of 2 does not. -/
theorem test_responder_wake :
    after (.responderWake 0 3) (inCondition .sleeping) (fun t => (t.lane 0).condition) = some .waking
      ∧ after (.responderWake 0 2) (inCondition .sleeping) (fun t => (t.lane 0).condition) = some .sleeping := by decide +kernel
theorem test_wake_pulse_end :
    after (.wakePulseEnd 0) (lane0 (s := inCondition .waking) fun L => { L with line := { L.line with driving := true } })
      (fun t => ((t.lane 0).ltxHigh, (t.lane 0).line.recessiveRun)) = some (true, 0) := by decide +kernel
theorem test_wake_settle_complete :
    reports (.wakeSettleComplete 0) (lane0 (s := inCondition .waking) fun L => { L with resume := .running })
      = some [.laneChange 0 .waking .running .settled] := by decide +kernel
/-- R127, R129: auto-recover on leaves FAULTED with drain owed discharged; off, and not armed, it stays. -/
theorem test_recovery_quiet_complete :
    let s := lane0 (s := inCondition .faulted) fun L => { L with line := { L.line with drainOwed := true } }
    after (.recoveryQuietComplete 0) s (fun t => ((t.lane 0).condition, (t.lane 0).line.drainOwed)) = some (.halted, false)
      ∧ after (.recoveryQuietComplete 0) (lane0 (s := s) fun L => { L with config := { L.config with autoRecover := false } })
        (fun t => ((t.lane 0).condition, (t.lane 0).line.drainOwed)) = some (.faulted, true) := by decide +kernel
/-- R43: the thirtieth dominant bit time in a row raises the stuck fault; R81: a dominant bit time restarts the pause. -/
theorem test_dominant_bit_time :
    after (.dominantBitTime 0 low) (lane0 fun L => { L with line := { L.line with dominantRun := 29 } }) (fun t => (t.lane 0).condition)
      = some .faulted
      ∧ after (.dominantBitTime 0 low)
          (lane0 (s := inCondition .running) fun L => { L with round := { L.round with pause := some 3 } })
          (fun t => ((t.lane 0).round.pause, (t.lane 0).line.dominantRun)) = some (some 0, 1) := by decide +kernel
/-- R27, R149: right after reset HATNn is low, for READY waits, every LTXn is high and every LENn on; R162: HTX is high. -/
theorem test_pins_after_reset : ∀ bit ∈ [0, 80], State.reset.pins bit = ⟨false, true, Vector.replicate 4 true, Vector.replicate 4 true⟩ := by
  decide +kernel
/-- R152, R162, R163: HTX carries the start byte 0xC3 of READY bit by bit, least significant first, and is high behind the frame and while a reset
lasts. -/
theorem test_htx_level :
    after .sendReady State.reset (fun t => ((List.range 11).map fun i => (t.pins i).htx, (t.pins 80).htx))
        = some ([false, true, true, false, false, false, false, true, true, true, false], true)
      ∧ Pins.inReset.htx = true := by decide +kernel
/-- Step takes the front command and leaves the rest. -/
theorem test_step_takes_the_front :
    (match step { State.reset with pending := [.sendReady, .frameEnd] } with
      | .next t => t.pending
      | .fault _ | .refused _ => []) = [.frameEnd] := by decide

/-! ## Witnesses: the part, the link and the handler

For every statement that has hypotheses, states and operands that meet them, clause by clause, at the boundary values of each clause. -/

/-- The handler takes a frame that a buffer holds alone, where the host link is as after reset. -/
theorem takes_taking (f : Frame) (s : State) (h : s.hli = State.reset.hli := by rfl) : Takes (taking f s) f := by
  refine ⟨?_, ?_, ?_, ?_⟩ <;> simp [taking, State.onHli, h, Hli.cached] <;> simp [State.reset, State.afterReset, Hli.reset]

theorem witness_StepRunsFrontCommand :
    ({ State.reset with pending := [.sendReady, .frameEnd] } : State).pending = .sendReady :: [.frameEnd] := rfl

theorem witness_FaultyFramesAreDiscardedAndCounted :
    State.reset.hli.receiver = .hunting ∧ (State.reset.onHli fun h => { h with receiver := .insideFrame }).hli.receiver = .insideFrame
      ∧ (∀ x ∈ ([0x000, 0x0C3, 0x1C2] : List LinkLevels), x ≠ 1#1 ++ 0xC3#8) ∧ (0x1C3 : LinkLevels) = 1#1 ++ 0xC3#8
      ∧ (∀ b ∈ ([0, 1, 67, 0xC3, 255] : List Byte), b.toNat < 2 ∨ 66 < b.toNat)
      ∧ (∀ n ∈ [2, 66], 2 ≤ (List.replicate n (1 : Byte)).length ∧ (List.replicate n (1 : Byte)).length ≤ 66
          ∧ [0, 0] ≠ crcBytes (crc16 (byte n :: List.replicate n (1 : Byte)))) := by
  decide +kernel

theorem witness_GoodFrameJoinsTheBufferOrOverruns :
    (State.reset.onHli fun h => { h with receiver := .insideFrame }).hli.receiver = .insideFrame
      ∧ ∀ n ∈ [0, 64], (⟨1, 7, List.replicate n 0⟩ : Frame).body.length ≤ 64 := by
  decide +kernel

theorem fed_tables : RouteFed tables ⟨0, 5⟩ := (State.routeFed_iff _ _).mp (by decide +kernel)

theorem not_fed_tables : ¬ RouteFed tables ⟨0, 4⟩ := fun h => absurd ((State.routeFed_iff _ _).mpr h) (by decide +kernel)

/-- Slot 4 takes its failsafe data; slot 5 is route-fed and slot 1 holds none. -/
theorem witness_HostSilenceAppliesTheFailsafe :
    let s := tables.onHli fun h => { h with silenceLimit := 1, silenceTimer := .running 1 }
    s.hli.silenceTimer = .running 1
      ∧ (s.slot ⟨0, 4⟩ = .published publishedRec ∧ publishedRec.failsafe = some [9, 9] ∧ ¬ RouteFed s ⟨0, 4⟩)
      ∧ (∀ p d, s.slot ⟨0, 5⟩ = .published p → p.failsafe = some d → RouteFed s ⟨0, 5⟩)
      ∧ ∀ p d, s.slot ⟨0, 1⟩ = .published p → p.failsafe = some d → RouteFed s ⟨0, 1⟩ :=
  ⟨rfl, ⟨rfl, rfl, not_fed_tables⟩, fun _ _ _ _ => fed_tables, fun p _ h => absurd (h : SlotRecord.polled polledRec = .published p) nofun⟩

/-- A state with one reply and one report waiting, and READY gone. -/
def waiting (credit : Nat) : State :=
  { (State.reset.onHli fun h => { h with ready := none, credit }) with
    reports := { inFlight := [], unsent := [.hostSilence true], lostCount := 0, lostKinds := 0 } }

theorem witness_ReadyAndRepliesAreSentFirst :
    (State.reset.hli.transmitting = none ∧ State.reset.hli.ready = some .power)
      ∧ let s := State.reset.onHli fun h => { h with ready := none, replies := [⟨7, 1, .ok, []⟩] }
        s.hli.transmitting = none ∧ s.hli.ready = none ∧ s.hli.replies = ⟨7, 1, .ok, []⟩ :: [] := by
  decide

theorem witness_ReportsAreNumberedAsTheyAreSent :
    ∀ credit ∈ [0, 1], (waiting credit).hli.transmitting = none ∧ (waiting credit).hli.ready = none ∧ (waiting credit).hli.replies = []
      ∧ (waiting credit).reports.unsent = .hostSilence true :: [] ∧ (waiting credit).hli.credit = credit := by
  decide

/-- A state with a frame in transmission. -/
def sending (f : OutFrame) (stopped : Bool) : State :=
  State.reset.onHli fun h => { h with transmitting := some f, handlerStopped := stopped }

theorem witness_SoftResetTakesEffectAtItsReply :
    Takes (taking ⟨0x02, 7, []⟩) ⟨0x02, 7, []⟩
      ∧ (sending (.ready .pin) false).hli.transmitting = some (.ready .pin)
      ∧ (sending (.report ⟨1, .hostSilence true⟩) false).hli.transmitting = some (.report ⟨1, .hostSilence true⟩)
      ∧ (∀ x ∈ [(false, ⟨7, 2, .ok, []⟩), (true, ⟨7, 1, .ok, []⟩), (true, (⟨7, 2, .badLength, []⟩ : Reply))],
          (sending (.reply x.2) x.1).hli.transmitting = some (.reply x.2)
            ∧ ((sending (.reply x.2) x.1).hli.handlerStopped = false ∨ x.2.code ≠ 0x02 ∨ x.2.status ≠ .ok))
      ∧ let r : Reply := ⟨7, 2, .ok, []⟩
        (sending (.reply r) true).hli.transmitting = some (.reply r) ∧ (sending (.reply r) true).hli.handlerStopped = true
          ∧ r.code = 0x02 ∧ r.status = .ok :=
  ⟨takes_taking _ _, rfl, rfl, by decide, rfl, rfl, rfl, rfl⟩

/-- A resent SCHED_OPEN, and an unknown kind sent again. -/
theorem witness_DuplicatesAreAnsweredFromTheCache :
    ∀ c ∈ [(Instr.schedOpen 7 [0], (⟨0x28, 7, [0]⟩ : Frame)), (.unknownRequest 0 7 [0], ⟨0, 7, [0]⟩)],
      let e : CacheEntry := ⟨crc16 [0], ⟨7, c.2.kind, .ok, [96]⟩⟩
      let s := (taking c.2).onHli fun h => { h with cache := [e] }
      c.1.frame = some c.2 ∧ s.hli.handlerStopped = false ∧ s.hli.replies.length < 4 ∧ s.hli.buffer.head? = some c.2 ∧ c.2.tag ≠ 0
        ∧ (s.hli.cache.map fun x => x.reply.tag).Nodup ∧ e ∈ s.hli.cache ∧ e.reply.tag = c.2.tag ∧ e.reply.code = c.2.kind
        ∧ e.bodyCrc = crc16 c.2.body ∧ (0 : Byte) ∉ requestCodes := by
  decide +kernel

/-- A state that takes a frame, with replies to requests of the given tags in its cache. -/
def caching (f : Frame) (tags : List Byte) : State :=
  (taking f).onHli fun h => { h with cache := tags.map fun n => ⟨crc16 [0], ⟨n, 0x28, .ok, [96]⟩⟩ }

/-- HELLO, an unknown kind with tag 0, a LINK_RESET taken and one refused for its length; and a cache that holds the tag, holds seven others,
and is full. -/
theorem witness_EveryRequestIsAnsweredOnce :
    (∀ x ∈ [(Instr.hello 7 [], (⟨0x01, 7, []⟩ : Frame)), (.unknownRequest 0xFF 0 [], ⟨0xFF, 0, []⟩), (.linkReset 7 [], ⟨0x03, 7, []⟩),
        (.linkReset 7 [0], ⟨0x03, 7, [0]⟩)],
      x.1.frame = some x.2 ∧ Takes (taking x.2) x.2
        ∧ ∀ kind tag body, x.1 = .unknownRequest kind tag body → kind ∉ requestCodes)
      ∧ ∀ x ∈ [([6, 7, 8], true), ([1, 2, 3, 4, 5, 6, 8], false), ([1, 2, 3, 4, 5, 6, 8, 9], (false : Bool))],
          let s := caching ⟨0x01, 7, []⟩ x.1
          Takes s ⟨0x01, 7, []⟩ ∧ ((∃ e ∈ s.hli.cache, e.reply.tag = 7) ↔ x.2 = true)
            ∧ ((∀ e ∈ s.hli.cache, e.reply.tag ≠ 7) ↔ x.2 = false) := by
  refine ⟨fun x hx => ⟨by revert x; decide, takes_taking _ _, ?_⟩, fun x hx => ⟨⟨rfl, by change 0 < 4; decide, rfl, ?_⟩, ?_⟩⟩
  · intro kind tag body e
    simp only [List.mem_cons, List.not_mem_nil, or_false] at hx
    rcases hx with rfl | rfl | rfl | rfl <;> cases e
    decide
  all_goals revert x; decide +kernel

/-- The table of R171: the codes with the least and the greatest length of their bodies. -/
def bodies : List (Byte × Nat × Nat) :=
  [(0x01, 0, 0), (0x02, 0, 0), (0x03, 0, 0), (0x04, 1, 1), (0x05, 1, 1), (0x10, 10, 10), (0x11, 1, 1), (0x12, 1, 1), (0x13, 1, 1),
    (0x14, 1, 1), (0x15, 2, 2), (0x16, 1, 1), (0x20, 7, 7), (0x21, 2, 2), (0x22, 2, 14), (0x23, 2, 2), (0x24, 3, 15), (0x28, 1, 1),
    (0x29, 3, 49), (0x2A, 1, 1), (0x2B, 1, 1), (0x2C, 3, 3), (0x30, 2, 14), (0x31, 2, 2), (0x34, 6, 6), (0x35, 1, 1), (0x36, 0, 0),
    (0x38, 1, 1), (0x39, 2, 2)]

/-- The table gives a body length for a code. -/
abbrev Given (code : Byte) (n : Nat) : Prop :=
  ∃ row ∈ bodies, row.1 = code ∧ row.2.1 ≤ n ∧ n ≤ row.2.2 ∧ (code = 0x29 → n % 2 = 1)

/-- Codes beside the catalogue's; body lengths beside those of WRITE_SLOT and of SCHED_ADD, an even one among them; and lanes 4 and 255
at the bounds of both. -/
theorem witness_KindLengthAndLaneAreCheckedFirst :
    (∀ k ∈ ([0x00, 0x06, 0x3A, 0x80, 0xFF] : List Byte), k ∉ bodies.map Prod.fst ∧ Takes (taking ⟨k, 7, []⟩) ⟨k, 7, []⟩)
      ∧ (∀ b : List Byte, (Instr.writeSlot 7 b).frame = some ⟨0x22, 7, b⟩ ∧ (Instr.schedAdd 7 b).frame = some ⟨0x29, 7, b⟩
          ∧ (∀ kind tag body, Instr.writeSlot 7 b ≠ .unknownRequest kind tag body ∧ Instr.schedAdd 7 b ≠ .unknownRequest kind tag body)
          ∧ (Instr.writeSlot 7 b).checksLaneFirst = true ∧ (Instr.schedAdd 7 b).checksLaneFirst = true
          ∧ ∀ k : Byte, Takes (taking ⟨k, 7, b⟩) ⟨k, 7, b⟩)
      ∧ (∀ x ∈ [((0x22 : Byte), 1), (0x22, 15), (0x29, 1), (0x29, 4), (0x29, 51)], ¬ Given x.1 (List.replicate x.2 (0 : Byte)).length)
      ∧ (∀ x ∈ [((0x22 : Byte), 2), (0x22, 14), (0x29, 3), (0x29, 49)], ∀ lane : Byte,
          Given x.1 (lane :: List.replicate (x.2 - 1) (0 : Byte)).length)
      ∧ ∀ lane ∈ ([4, 255] : List Byte), 4 ≤ lane.toNat :=
  ⟨fun k h => ⟨by revert k; decide, takes_taking _ _⟩, fun _ => ⟨rfl, rfl, by simp, rfl, rfl, fun _ => takes_taking _ _⟩, by decide +kernel,
    fun x h lane => by rw [List.length_cons, List.length_replicate]; revert x; decide +kernel, by decide⟩

/-- Slots 0, 32 and 255, in the second place of a body, in each place of a ROUTE_SET, and in a SCHED_ADD behind an entry that passes. -/
theorem witness_TheSleepSlotIsRefused :
    (∀ slot ∈ ([0, 32, 255] : List Byte), (slot = 0 ∨ 32 ≤ slot.toNat)
      ∧ ((Instr.clearSlot 7 [0, slot]).frame = some ⟨0x21, 7, [byte (0 : LaneId).val, slot]⟩ ∧ (Instr.clearSlot 7 [0, slot]).namesUserSlot = true
        ∧ Takes (taking ⟨0x21, 7, [0, slot]⟩) ⟨0x21, 7, [0, slot]⟩ ∧ bodyLengthOk 0x21 2 = true)
      ∧ Takes (taking ⟨0x34, 7, [15, 0, slot, 0, 1, 0]⟩) ⟨0x34, 7, [15, 0, slot, 0, 1, 0]⟩
      ∧ Takes (taking ⟨0x34, 7, [15, 0, 1, 0, slot, 0]⟩) ⟨0x34, 7, [15, 0, 1, 0, slot, 0]⟩
      ∧ let f : Frame := ⟨0x29, 7, byte (0 : LaneId).val :: [(⟨1, 2, 3⟩ : Entry)].flatMap Entry.bytes ++ slot :: 0 :: []⟩
        let s := taking f (lane0 (s := tables) fun L => { L with schedules := { L.schedules with builder := some [] } })
        Takes s f ∧ bodyLengthOk 0x29 f.body.length = true ∧ (s.lane 0).schedules.builder = some []
          ∧ ∀ e ∈ [(⟨1, 2, 3⟩ : Entry)], e.slot ≠ 0 ∧ s.slot ⟨0, e.slot⟩ ≠ .undefined ∧ e.phase < 2 ^ e.exponent.val) :=
  fun slot h => ⟨by revert slot; decide, ⟨rfl, rfl, takes_taking _ _, rfl⟩, takes_taking _ _, takes_taking _ _, takes_taking _ _,
    by simp [Entry.bytes]; decide, rfl,
    by
      intro e he
      obtain rfl := List.mem_singleton.mp he
      exact ⟨by decide, nofun, by decide⟩⟩

theorem witness_HelloAndReadRoutesAnswer :
    Takes (taking ⟨0x01, 7, []⟩) ⟨0x01, 7, []⟩ ∧ Takes (taking ⟨0x36, 7, []⟩) ⟨0x36, 7, []⟩ := ⟨takes_taking _ _, takes_taking _ _⟩

theorem witness_LinkResetReturnsWhatIsInFlight : Takes (taking ⟨0x03, 7, []⟩) ⟨0x03, 7, []⟩ := takes_taking _ _

theorem witness_LinkStatusAndSilenceLimit :
    (∀ v : Byte, Takes (taking ⟨0x04, 7, [v]⟩) ⟨0x04, 7, [v]⟩ ∧ Takes (taking ⟨0x05, 7, [v]⟩) ⟨0x05, 7, [v]⟩)
      ∧ ∀ v ∈ ([2, 255] : List Byte), 2 ≤ v.toNat :=
  ⟨fun _ => ⟨takes_taking _ _, takes_taking _ _⟩, by decide⟩

/-! ## Witnesses: the requests -/

/-- The value of a field of a lane configuration record. -/
def field (b : List Byte) (i : Nat) : Nat := (b.getD i 0).toNat

/-- The nine fields of a lane configuration record in their ranges (R132). -/
abbrev LegalConfig (b : List Byte) : Prop :=
  field b 0 ≤ 4 ∧ field b 1 ≤ 1 ∧ (2 ≤ field b 2 ∧ field b 2 ≤ 40) ∧ (1 ≤ field b 3 ∧ field b 3 ≤ 12) ∧ (2 ≤ field b 4 ∧ field b 4 ≤ 16)
    ∧ (1 ≤ field b 5 ∧ field b 5 ≤ 32) ∧ field b 6 ≤ 1 ∧ (4 ≤ field b 7 ∧ field b 7 ≤ 24) ∧ 16 ≤ field b 8

/-- Every field at its least and at its greatest value, and each in turn beside its range; in every condition. -/
theorem witness_ConfigLaneReplacesTheRecord :
    (∀ (b : List Byte) (c : Condition),
      Takes (taking ⟨0x10, 7, byte (0 : LaneId).val :: b⟩ (inCondition c)) ⟨0x10, 7, byte (0 : LaneId).val :: b⟩
        ∧ ((taking ⟨0x10, 7, byte (0 : LaneId).val :: b⟩ (inCondition c)).lane 0).condition = c)
      ∧ (LegalConfig [0, 0, 2, 1, 2, 1, 0, 4, 16] ∧ LegalConfig [4, 1, 40, 12, 16, 32, 1, 24, 255])
      ∧ ∀ x ∈ [(0, (5 : Byte)), (1, 2), (2, 1), (2, 41), (3, 0), (3, 13), (4, 1), (4, 17), (5, 0), (5, 33), (6, 2), (7, 3), (7, 25), (8, 15)],
          ¬ LegalConfig ([0, 0, 2, 1, 2, 1, 0, 4, 16].set x.1 x.2) :=
  ⟨fun _ _ => ⟨takes_taking _ _, rfl⟩, by decide +kernel, by decide +kernel⟩

/-- A request that carries the lane alone is taken in every condition, with a transaction in progress or without. -/
theorem witness_lane_request (k : Byte) (c : Condition) (x : Option Transaction) :
    let f : Frame := ⟨k, 7, [byte (0 : LaneId).val]⟩
    let s := taking f (lane0 (s := inCondition c) fun L => { L with transaction := x })
    Takes s f ∧ (s.lane 0).condition = c ∧ (s.lane 0).transaction = x := ⟨takes_taking _ _, rfl, rfl⟩

theorem witness_LaneStartByCondition (c : Condition) :
    let f : Frame := ⟨0x11, 7, [byte (0 : LaneId).val]⟩
    Takes (taking f (inCondition c)) f ∧ ((taking f (inCondition c)).lane 0).condition = c := ⟨takes_taking _ _, rfl⟩

theorem witness_LaneHaltByCondition (c : Condition) (x : Option Transaction) :
    let f : Frame := ⟨0x12, 7, [byte (0 : LaneId).val]⟩
    let s := taking f (lane0 (s := inCondition c) fun L => { L with transaction := x })
    Takes s f ∧ (s.lane 0).condition = c ∧ (s.lane 0).transaction = x := witness_lane_request 0x12 c x

theorem witness_RecoveryIsArmedByRequest :
    ∀ k ∈ ([0x11, 0x12] : List Byte), ∀ recover : Bool, ∀ run ∈ [0, 127, 128, 255],
      let f : Frame := ⟨k, 7, [byte (0 : LaneId).val]⟩
      let s := taking f (lane0 (s := inCondition .faulted) fun L =>
        { L with config := { L.config with autoRecover := recover }, line := { L.line with recessiveRun := run } })
      Takes s f ∧ (s.lane 0).condition = .faulted ∧ (s.lane 0).config.autoRecover = recover ∧ (s.lane 0).line.recessiveRun = run :=
  fun _ _ _ _ _ => ⟨takes_taking _ _, rfl, rfl, rfl⟩

theorem witness_LaneSleepBeginsTheSleepCall (c : Condition) (x : Option Transaction) :
    let f : Frame := ⟨0x13, 7, [byte (0 : LaneId).val]⟩
    let s := taking f (lane0 (s := inCondition c) fun L => { L with transaction := x })
    Takes s f ∧ (s.lane 0).condition = c ∧ (s.lane 0).transaction = x := witness_lane_request 0x13 c x

theorem witness_LaneWakeBeginsThePulse (c : Condition) :
    let f : Frame := ⟨0x14, 7, [byte (0 : LaneId).val]⟩
    Takes (taking f (inCondition c)) f ∧ ((taking f (inCondition c)).lane 0).condition = c := ⟨takes_taking _ _, rfl⟩

theorem witness_LaneStatusAndCapture :
    (∀ option : Byte, Takes (taking ⟨0x15, 7, [byte (0 : LaneId).val, option]⟩) ⟨0x15, 7, [byte (0 : LaneId).val, option]⟩)
      ∧ (∀ option ∈ ([2, 255] : List Byte), 2 ≤ option.toNat)
      ∧ Takes (taking ⟨0x16, 7, [byte (0 : LaneId).val]⟩) ⟨0x16, 7, [byte (0 : LaneId).val]⟩ :=
  ⟨fun _ => takes_taking _ _, by decide, takes_taking _ _⟩

/-- Slot 2 of `tables` is named by a route, and slot 1 by nothing. -/
theorem referenced_tables : Referenced tables ⟨0, 2⟩ := (State.inUse_iff _ _).mp (by decide +kernel)

theorem not_referenced_tables : ¬ Referenced tables ⟨0, 1⟩ := fun h => absurd ((State.inUse_iff _ _).mpr h) (by decide +kernel)

/-- The fields of a DEFINE_SLOT in their lists and ranges (R181). -/
abbrev LegalFields (kind form n mode param : Byte) : Prop :=
  (kind = 1 ∧ (param = 255 ∨ 1 ≤ param.toNat ∧ param.toNat ≤ 15) ∨ kind = 2 ∧ (param = 255 ∨ param.toNat ≤ 7)
    ∨ kind = 3 ∧ form = 0 ∧ mode = 0 ∧ param = 0) ∧ form.toNat ≤ 1 ∧ n.toNat ≤ 12 ∧ mode.toNat ≤ 2

/-- The first half at fields beside their ranges; the second at the bounds of the parameters and the lengths, each for a slot that is named
and one that is not. -/
theorem witness_DefineSlotStartsAfresh :
    (∀ x ∈ [((0 : Byte), (0 : Byte), (0 : Byte), (0 : Byte), (0 : Byte)), (4, 0, 0, 0, 0), (1, 0, 0, 0, 0), (1, 0, 0, 0, 16), (2, 0, 0, 0, 8),
        (1, 2, 0, 0, 255), (1, 0, 13, 0, 255), (2, 0, 0, 3, 255), (3, 1, 0, 0, 0), (3, 0, 0, 1, 0), (3, 0, 0, 0, 1)],
        ¬ LegalFields x.1 x.2.1 x.2.2.1 x.2.2.2.1 x.2.2.2.2)
      ∧ (∀ b : List Byte, ∀ k : SlotId, let f : Frame := ⟨0x20, 7, byte (0 : LaneId).val :: byte k.val :: b⟩
          Takes (taking f tables) f)
      ∧ (∀ f : Frame, Referenced (taking f tables) ⟨0, 2⟩ ∧ ¬ Referenced (taking f tables) ⟨0, 1⟩)
      ∧ (∀ n ∈ [0, 12], (LengthRule.exact n).bound ≤ 12 ∧ (LengthRule.upTo n).bound ≤ 12)
      ∧ (∀ x ∈ [((255 : Byte), 3), (1, 1), (15, 15)],
          x.1 = 255 ∧ x.2 = 3 ∨ x.1 ≠ 255 ∧ 1 ≤ x.1.toNat ∧ x.1.toNat ≤ 15 ∧ x.2 = x.1.toNat)
      ∧ ∀ x ∈ [((255 : Byte), 3), (0, 0), (7, 7)], x.1 = 255 ∧ x.2 = 3 ∨ x.1 ≠ 255 ∧ x.1.toNat ≤ 7 ∧ x.2 = x.1.toNat :=
  ⟨fun x hx => by fin_cases hx <;> decide, fun _ _ => takes_taking _ _, fun _ => ⟨referenced_tables, not_referenced_tables⟩, by decide, by decide, by decide⟩

theorem witness_ClearSlotReturnsToUndefined :
    ∀ k ∈ ([2, 1, 31] : List SlotId), let f : Frame := ⟨0x21, 7, [byte (0 : LaneId).val, byte k.val]⟩
      k ≠ 0 ∧ Takes (taking f tables) f ∧ Referenced (taking f tables) ⟨0, 2⟩ ∧ ¬ Referenced (taking f tables) ⟨0, 1⟩ :=
  fun k h => ⟨by revert k; decide, takes_taking _ _, referenced_tables, not_referenced_tables⟩

/-- A state holds slots of each kind, a route-fed one among them. -/
def HasKinds (s : State) : Prop :=
  s.slot ⟨0, 31⟩ = .undefined ∧ s.slot ⟨0, 1⟩ = .polled polledRec ∧ s.slot ⟨0, 2⟩ = .polled exactRec
    ∧ s.slot ⟨0, 3⟩ = .contended contendedRec ∧ (s.slot ⟨0, 4⟩ = .published publishedRec ∧ ¬ RouteFed s ⟨0, 4⟩)
    ∧ s.slot ⟨0, 5⟩ = .published publishedRec ∧ RouteFed s ⟨0, 5⟩

theorem hasKinds_tables (f : Frame) : HasKinds (taking f tables) :=
  ⟨rfl, rfl, rfl, rfl, ⟨rfl, not_fed_tables⟩, rfl, fed_tables⟩

theorem witness_WriteSlotReplacesTheData :
    ∀ (k : SlotId), ∀ n ∈ [0, 2, 12], let data : List Byte := List.replicate n 0
      let f : Frame := ⟨0x22, 7, byte (0 : LaneId).val :: byte k.val :: data⟩
      data.length ≤ 12 ∧ Takes (taking f tables) f ∧ HasKinds (taking f tables) ∧ (data.length = publishedRec.length ↔ n = 2) :=
  fun _ n h => ⟨by revert n; decide, takes_taking _ _, hasKinds_tables _, by revert n; decide⟩

theorem witness_ReadSlotReturnsTheRecord :
    (∀ slot : Byte, Takes (taking ⟨0x23, 7, [byte (0 : LaneId).val, slot]⟩ tables) ⟨0x23, 7, [byte (0 : LaneId).val, slot]⟩)
      ∧ (∀ slot ∈ ([32, 255] : List Byte), 32 ≤ slot.toNat) ∧ (∀ k : SlotId, ∃ slot : Byte, slot = byte k.val)
      ∧ ∀ f : Frame, HasKinds (taking f tables) :=
  ⟨fun _ => takes_taking _ _, by decide, fun k => ⟨byte k.val, rfl⟩, hasKinds_tables⟩

theorem witness_SetFailsafeSetsAndClears :
    (∀ (k : SlotId) (operation : Byte) (data : List Byte), let f : Frame := ⟨0x24, 7, byte (0 : LaneId).val :: byte k.val :: operation :: data⟩
        Takes (taking f tables) f ∧ HasKinds (taking f tables) ∧ (taking f (tables.setSlot ⟨0, 4⟩ (.published { publishedRec with failsafeActive := true }))).slot ⟨0, 4⟩
          = .published { publishedRec with failsafeActive := true })
      ∧ (∀ o ∈ ([2, 255] : List Byte), 2 ≤ o.toNat) ∧ (∀ o ∈ ([0, 1] : List Byte), o.toNat < 2)
      ∧ ∀ n ∈ [0, 2, 12], (List.replicate n (0 : Byte)).length ≤ 12
        ∧ ((List.replicate n (0 : Byte)).length = publishedRec.length ↔ n = 2) ∧ (List.replicate n (0 : Byte) = [] ↔ n = 0) :=
  ⟨fun _ _ _ => ⟨takes_taking _ _, hasKinds_tables _, rfl⟩, by decide, by decide, by decide⟩

/-- Lane 0 with given schedules, in a condition. -/
def scheduled (builder staged : Option (List Entry)) (active : List Entry) (c : Condition := .halted) : State :=
  lane0 (s := tables) fun L => { L with condition := c, schedules := { builder, staged, active } }

theorem witness_BuildersAreOpenedAndDiscarded :
    (∀ k ∈ ([0x28, 0x2B] : List Byte), let f : Frame := ⟨k, 7, [byte (0 : LaneId).val]⟩
      Takes (taking f (scheduled none none [])) f ∧ Takes (taking f (scheduled (some []) none [])) f)
      ∧ ∀ f, ((taking f (scheduled (some []) none [])).lane 0).schedules.builder.isSome
        ∧ ((taking f (scheduled none none [])).lane 0).schedules.builder = none :=
  ⟨fun _ _ => ⟨takes_taking _ _, takes_taking _ _⟩, fun _ => ⟨rfl, rfl⟩⟩

/-- A SCHED_ADD of `n` entries for slot 1. -/
def adding (n : Nat) : List Entry := List.replicate n ⟨1, 4, 15⟩

/-- Without a builder, 1 and 24 entries that all fail; an entry that names slot 31, which is undefined, or slot 1 with exponent 5 or 15 or a phase of its divider or above, behind one that
passes; and one entry and 24: without a builder, into a builder that they fill to 48 or past it, and into a pool that they fill to 96 or past it. -/
theorem witness_SchedAddAppendsWholeOrNothing :
    (∀ n ∈ [1, 24],
      let body := byte (0 : LaneId).val :: List.replicate (2 * n) 0xFF
      let s := taking ⟨0x29, 7, body⟩ (scheduled none none [])
      Takes s ⟨0x29, 7, body⟩ ∧ (3 ≤ body.length ∧ body.length ≤ 49 ∧ body.length % 2 = 1) ∧ (s.lane 0).schedules.builder = none)
      ∧ (∀ (k : SlotId) (timing : Byte),
      let body := byte (0 : LaneId).val :: [(⟨1, 2, 3⟩ : Entry)].flatMap Entry.bytes ++ byte k.val :: timing :: []
      let s := taking ⟨0x29, 7, body⟩ (scheduled (some []) none [])
      Takes s ⟨0x29, 7, body⟩ ∧ body.length ≤ 49 ∧ body.length % 2 = 1 ∧ (s.lane 0).schedules.builder = some []
        ∧ s.slot ⟨0, 31⟩ = .undefined ∧ s.slot ⟨0, 1⟩ = .polled polledRec)
      ∧ (∀ timing ∈ ([0x05, 0x0F, 0x10, 0x42, 0xF3] : List Byte), 5 ≤ timing.toNat % 16 ∨ 2 ^ (timing.toNat % 16) ≤ timing.toNat / 16)
      ∧ (∀ n ∈ [1, 24], adding n ≠ [] ∧ (adding n).length ≤ 24
      ∧ ∀ s : State, s.slot ⟨0, 1⟩ = .polled polledRec →
        ∀ e ∈ adding n, e.slot ≠ 0 ∧ s.slot ⟨0, e.slot⟩ ≠ .undefined ∧ e.phase < 2 ^ e.exponent.val)
      ∧ (∀ (builder : Option (List Entry)) (active : List Entry) (n : Nat),
          let f : Frame := ⟨0x29, 7, byte (0 : LaneId).val :: (adding n).flatMap Entry.bytes⟩
          let s := taking f (scheduled builder none active)
          Takes s f ∧ s.slot ⟨0, 1⟩ = .polled polledRec ∧ (s.lane 0).schedules.builder = builder)
      ∧ (let places : State → Nat := fun t => ((List.finRange 4).map fun m => (t.lane m).schedules.held).sum
        (24 + (adding 24).length ≤ 48 ∧ 48 < 25 + (adding 24).length)
          ∧ places (scheduled (some (adding 24)) none (adding 48)) + (adding 24).length ≤ 96
          ∧ 96 < places (scheduled (some (adding 24)) (some (adding 1)) (adding 48)) + (adding 24).length) := by
  refine ⟨fun n hn => ⟨takes_taking _ _, by revert n; decide, rfl⟩,
    fun _ _ => ⟨takes_taking _ _, by simp [Entry.bytes], by simp [Entry.bytes], rfl, rfl, rfl⟩, by decide,
    fun n hn => ⟨by revert n; decide, by revert n; decide, fun s hs e he => ?_⟩, fun _ _ _ => ⟨takes_taking _ _, rfl, rfl⟩,
    by decide +kernel⟩
  obtain ⟨-, rfl⟩ := List.mem_replicate.mp he
  exact ⟨by decide, by rw [hs]; nofun, by decide⟩

theorem witness_SchedCommitStagesOrSwaps (c : Condition) (builder : Option (List Entry)) (active : List Entry) (x : Option Transaction) :
    let f : Frame := ⟨0x2A, 7, [byte (0 : LaneId).val]⟩
    let s := taking f (lane0 (s := scheduled builder none active c) fun L => { L with transaction := x })
    Takes s f ∧ (s.lane 0).condition = c ∧ (s.lane 0).schedules.builder = builder ∧ (s.lane 0).schedules.active = active
      ∧ (s.lane 0).transaction = x := ⟨takes_taking _ _, rfl, rfl, rfl, rfl⟩

theorem witness_ReadScheduleAnswers :
    (∀ (which start : Byte) (staged : Option (List Entry)),
      let f : Frame := ⟨0x2C, 7, [byte (0 : LaneId).val, which, start]⟩
      let s := taking f (scheduled none staged [])
      Takes s f ∧ (s.lane 0).schedules.staged = staged)
      ∧ (∀ w ∈ ([2, 255] : List Byte), 2 ≤ w.toNat) ∧ (∀ x ∈ ([48, 255] : List Byte), 48 ≤ x.toNat)
      ∧ ∀ x ∈ ([0, 47] : List Byte), x.toNat ≤ 47 :=
  ⟨fun _ _ _ => ⟨takes_taking _ _, rfl⟩, by decide, by decide, by decide⟩

/-- Lane 0 of `tables` in a condition with `n` one-shots queued. -/
def queueing (n : Nat) (c : Condition) : State :=
  lane0 (s := tables) fun L =>
    { L with condition := c, oneShots := (List.range n).map fun i => { handle := i + 1, slot := 1, kind := .poll, data := none } }

theorem witness_SendOnceIsCheckedInOrder :
    (∀ (k : SlotId) (c : Condition), ∀ n ∈ [0, 2, 12], ∀ q ∈ [7, 8, 9],
      let data : List Byte := List.replicate n 0
      let f : Frame := ⟨0x30, 7, byte (0 : LaneId).val :: byte k.val :: data⟩
      let s := taking f (queueing q c)
      data.length ≤ 12 ∧ Takes s f ∧ HasKinds s ∧ (s.lane 0).condition = c ∧ (s.lane 0).oneShots.length = q
        ∧ (data.length = publishedRec.length ↔ n = 2) ∧ (data = [] ↔ n = 0))
      ∧ ∀ c ∈ [Condition.sleepPending, .sleeping, .faulted], ¬ (c = .halted ∨ c = .running ∨ c = .halting ∨ c = .waking) :=
  ⟨fun _ _ n hn q hq => ⟨by revert n; decide, takes_taking _ _, ⟨rfl, rfl, rfl, rfl, ⟨rfl, not_fed_tables⟩, rfl, fed_tables⟩, rfl,
    by change ((List.range q).map _).length = q; simp, by revert n; decide, by revert n; decide⟩, by decide⟩

/-! ## A state that meets every invariant -/

/-- A polled transaction on slot 1 that waits for its response. -/
def awaiting (forbidden : Bool) : Transaction := { started .polled .await with followUpsForbidden := forbidden }

/-- A lane in a condition, with a transaction or none, `q` one-shots queued and slot 1 in its active schedule. -/
def busy (c : Condition) (x : Option Transaction) (q : Nat) : Lane :=
  { Lane.reset with
    condition := c, transaction := x
    oneShots := (List.range q).map fun i => { handle := i + 1, slot := 1, kind := .poll, data := none }
    line := { Lane.reset.line with position := x.map fun _ => (1, 0) }
    capture := some { outcome := .lineStuck, slot := 3, cell := 0, bit := 0, round := 7 }, faultsSince := 255
    round := { Lane.reset.round with position := 1 }
    schedules := { builder := some [⟨2, 4, 15⟩], staged := some [], active := [⟨1, 0, 0⟩] } }

/-- A condition and a transaction that stand together. -/
def Fits (c : Condition) (x : Option Transaction) : Prop :=
  x = none ∧ (c = .halted ∨ c = .running ∨ c = .waking) ∨ x = some (awaiting false) ∧ c = .running
    ∨ x = some (awaiting true) ∧ c = .halting

/-- The six slots of `tables` on every lane, and four such lanes, `q` one-shots on lane 0, with commands waiting. -/
def rich (c : Condition) (x : Option Transaction) (q : Nat) (pending : List Instr := []) : State :=
  { tables with
    slots := Vector.replicate 4 (tables.slots[0])
    lanes := (Vector.replicate 4 (busy c x 0)).set 0 (busy c x q)
    nextHandle := 65535, pending }

theorem rich_lane (c : Condition) (x : Option Transaction) (q : Nat) (p : List Instr) (l : LaneId) :
    (rich c x q p).lane l = busy c x (if l = 0 then q else 0) := by
  fin_cases l <;> rfl

theorem rich_slot (c : Condition) (x : Option Transaction) (q : Nat) (p : List Instr) (r : SlotRef) :
    (rich c x q p).slot r = tables.slot ⟨0, r.slot⟩ := by
  obtain ⟨l, k⟩ := r
  fin_cases l <;> rfl

theorem awaiting_wf (f : Bool) : TransactionWf (awaiting f) := by
  constructor <;> simp [awaiting, started]

theorem busy_wf {c : Condition} {x : Option Transaction} {q : Nat} (h : Fits c x) (hq : q ≤ 8) : LaneWf (busy c x q) := by
  have ha := awaiting_wf
  rcases h with ⟨rfl, rfl | rfl | rfl⟩ | ⟨rfl, rfl⟩ | ⟨rfl, rfl⟩ <;>
    constructor <;> simp [busy, Lane.reset, hq, TxOutcome.faulty, awaiting, started]
  all_goals first | exact ha _ | simp [Transaction.levelsSent] | (constructor <;> simp [LaneConfig.default])

theorem lanesWf_rich {c : Condition} {x : Option Transaction} {q : Nat} (p : List Instr) (h : Fits c x) (hq : q ≤ 8) :
    LanesWf (rich c x q p) := by
  intro l
  rw [rich_lane]
  exact busy_wf h (by split <;> omega)

theorem records_tables (k : SlotId) : RecordWf (tables.slot ⟨0, k⟩) := by
  have h : tables.slot ⟨0, k⟩ = .undefined ∨ tables.slot ⟨0, k⟩ = sleepSlot none ∨ tables.slot ⟨0, k⟩ = .polled polledRec
      ∨ tables.slot ⟨0, k⟩ = .polled exactRec ∨ tables.slot ⟨0, k⟩ = .contended contendedRec
      ∨ tables.slot ⟨0, k⟩ = .published publishedRec := by
    revert k; decide +kernel
  rcases h with h | h | h | h | h | h <;> rw [h] <;>
    simp [RecordWf, sleepSlot, polledRec, exactRec, contendedRec, publishedRec, LengthRule.bound]

theorem route_tables (i : Fin 16) (t : Route) (h : tables.route i = some t) :
    i = 15 ∧ t = { src := ⟨0, 2⟩, dst := ⟨0, 5⟩, mode := .always } := by
  have e : ∀ i : Fin 16, tables.route i = if i = 15 then some { src := ⟨0, 2⟩, dst := ⟨0, 5⟩, mode := .always } else none := by
    decide +kernel
  rw [e i] at h
  split at h
  · exact ⟨‹_›, (Option.some.inj h).symm⟩
  · cases h

theorem tablesWf_rich {c : Condition} {x : Option Transaction} (p : List Instr) (h : Fits c x) (q : Nat) :
    TablesWf (rich c x q p) := by
  have hx : ∀ t, x = some t → ∃ f, t = awaiting f := by
    rcases h with ⟨rfl, -⟩ | ⟨rfl, -⟩ | ⟨rfl, -⟩ <;> rintro t ⟨⟩ <;> exact ⟨_, rfl⟩
  refine ⟨fun l => ⟨none, by rw [rich_slot]; rfl⟩, fun r => by rw [rich_slot]; exact records_tables r.slot, ?_, ?_, ?_, ?_⟩
  · intro l e he
    rw [rich_lane] at he
    rw [rich_slot]
    simp only [busy, Lane.entries, Option.getD_some, List.append_nil, List.cons_append, List.nil_append, List.mem_cons, List.not_mem_nil,
      or_false] at he
    rcases he with rfl | rfl
    · exact ⟨by decide, nofun, by decide⟩
    · exact ⟨by decide, nofun, by decide⟩
  · refine ⟨?_, ?_, ?_⟩
    · rintro i t hi
      obtain ⟨-, rfl⟩ := route_tables i t hi
      decide
    · rintro i t hi
      obtain ⟨-, rfl⟩ := route_tables i t hi
      rw [rich_slot, rich_slot]
      exact ⟨publishedRec, rfl, rfl, rfl⟩
    · rintro i j t u hi hj -
      exact (route_tables i t hi).1.trans (route_tables j u hj).1.symm
  · intro l o ho
    rw [rich_lane] at ho
    rw [rich_slot]
    obtain ⟨i, -, rfl⟩ := List.mem_map.mp ho
    exact ⟨show (1 : SlotId) ≠ 0 by decide, rfl, rfl⟩
  · refine ⟨?_, ?_, ?_, ?_⟩ <;> intro l t <;> rw [rich_lane] <;> rw [show ∀ n, (busy c x n).transaction = x from fun _ => rfl]
    · intro ht
      obtain ⟨f, rfl⟩ := hx t ht
      rw [rich_slot]
      rfl
    · intro ht
      obtain ⟨f, rfl⟩ := hx t ht
      exact ⟨nofun, nofun⟩
    · intro ht _
      obtain ⟨f, rfl⟩ := hx t ht
      exact ⟨⟨1, 0, 0⟩, List.mem_singleton.mpr rfl, rfl⟩
    · intro k ht hk
      obtain ⟨f, rfl⟩ := hx t ht
      cases hk

/-- The one-shot queue of lane 0 holds seven records, and eight. -/
theorem handlesWf_rich (c : Condition) (x : Option Transaction) (p : List Instr) (h : Fits c x) :
    ∀ q ∈ [0, 7, 8], HandlesWf (rich c x q p) := by
  have e : ∀ q ∈ [0, 7, 8], (rich c x q p).handles = (List.range q).map (· + 1) := by
    rcases h with ⟨rfl, -⟩ | ⟨rfl, -⟩ | ⟨rfl, -⟩ <;> intro q hq <;>
      rcases (by simpa using hq : q = 0 ∨ q = 7 ∨ q = 8) with rfl | rfl | rfl <;> rfl
  intro q hq
  refine ⟨show 1 ≤ 65535 ∧ 65535 ≤ 65535 by decide, ?_, ?_⟩
  · rw [e q hq]; revert q; decide +kernel
  · rw [e q hq]; revert q; decide +kernel

theorem poolWf_rich (c : Condition) (x : Option Transaction) (q : Nat) (p : List Instr) : PoolWf (rich c x q p) := by
  refine ⟨by rw [show (rich c x q p).lanes = #v[busy c x q, busy c x 0, busy c x 0, busy c x 0] from rfl]; simp [busy, Schedules.held], ?_, ?_, ?_⟩
  all_goals intro l; rw [rich_lane]
  · rintro es ⟨⟩; decide
  · rintro es ⟨⟩; decide
  · exact show 1 ≤ 48 by decide

/-- A new one-shot of each kind, on a queue that it fills to eight; next handle 65535. -/
theorem witness_SendOnceIssuesAHandle {c : Condition} {x : Option Transaction} (h : Fits c x) :
    (let f : Frame := ⟨0x30, 7, byte (0 : LaneId).val :: byte (1 : SlotId).val :: []⟩
      let s := taking f (rich c x 7)
      (1 : SlotId) ≠ 0 ∧ HandlesWf s ∧ LanesWf s ∧ Takes s f ∧ (s.lane 0).oneShots.length < 8
        ∧ (c = .halted ∨ c = .running ∨ c = .halting ∨ c = .waking) ∧ (s.lane 0).condition = c
        ∧ ∃ p, s.slot ⟨0, 1⟩ = .polled p)
      ∧ let f : Frame := ⟨0x30, 7, byte (0 : LaneId).val :: byte (4 : SlotId).val :: [1, 2]⟩
        let s := taking f (rich c x 7)
        (4 : SlotId) ≠ 0 ∧ HandlesWf s ∧ LanesWf s ∧ Takes s f ∧ (s.lane 0).oneShots.length < 8 ∧ ¬ RouteFed s ⟨0, 4⟩
          ∧ ∃ p, s.slot ⟨0, 4⟩ = .published p ∧ [(1 : Byte), 2].length = p.length := by
  have hh := handlesWf_rich c x [] h 7 (by decide)
  have hl := lanesWf_rich [] h (show 7 ≤ 8 by decide)
  refine ⟨⟨by decide, ⟨hh.next, hh.range, hh.distinct⟩, hl, takes_taking _ _, show 7 < 8 by decide, ?_, rfl, polledRec, rfl⟩,
    by decide, ⟨hh.next, hh.range, hh.distinct⟩, hl, takes_taking _ _, show 7 < 8 by decide, not_fed_tables, publishedRec, rfl, rfl⟩
  rcases h with ⟨-, rfl | rfl | rfl⟩ | ⟨-, rfl⟩ | ⟨-, rfl⟩ <;> simp

/-- A queued handle between two others, a running one, and handles that none holds. -/
theorem witness_WithdrawRemovesOrRefuses :
    (let f : Frame := ⟨0x31, 7, [2, 0]⟩
      let s := taking f (queueing 3 .running)
      let o : Nat → OneShot := fun n => { handle := n, slot := 1, kind := .poll, data := none }
      Takes s f ∧ (s.lane 0).oneShots = [o 1] ++ o 2 :: [o 3] ∧ (o 2).handle = (2 : Byte).toNat + 256 * (0 : Byte).toNat
        ∧ (∀ x ∈ [o 1], x.handle ≠ 2) ∧ ∀ m, (∃ y ∈ (s.lane m).oneShots, y.handle = 2) → m = 0)
      ∧ (let f : Frame := ⟨0x31, 7, [200, 0]⟩
        let s := taking f (calling { started .polled .receive with source := .oneShot, oneShot := some (200, .poll) })
        Takes s f ∧ (∀ l, ¬ ∃ o ∈ (s.lane l).oneShots, o.handle = 200)
          ∧ ∃ l t kind, (s.lane l).transaction = some t ∧ t.oneShot = some (200, kind))
      ∧ ∀ b ∈ ([0, 255] : List Byte), let f : Frame := ⟨0x31, 7, [b, b]⟩
        let s := taking f tables
        Takes s f ∧ (∀ l, ¬ ∃ o ∈ (s.lane l).oneShots, o.handle = b.toNat + 256 * b.toNat)
          ∧ ∀ l, ¬ ∃ t kind, (s.lane l).transaction = some t ∧ t.oneShot = some (b.toNat + 256 * b.toNat, kind) := by
  refine ⟨⟨takes_taking _ _, rfl, rfl, by decide, ?_⟩, ⟨takes_taking _ _, ?_, 0, _, .poll, rfl, rfl⟩,
    fun b _ => ⟨takes_taking _ _, ?_, ?_⟩⟩
  · intro m
    fin_cases m
    · exact fun _ => rfl
    all_goals exact fun ⟨_, h, _⟩ => absurd h List.not_mem_nil
  all_goals intro l; fin_cases l
  all_goals first | exact fun ⟨_, h, _⟩ => absurd h List.not_mem_nil | exact fun ⟨_, _, h, _⟩ => nomatch h

/-- Indexes 15, 16 and 255, lanes 3, 4 and 255, slots 0, 1, 31, 32 and 255 and modes 1, 2 and 255; then each later check. -/
theorem witness_RouteSetIsCheckedInOrder :
    (∀ body : List Byte, Takes (taking ⟨0x34, 7, body⟩ tables) ⟨0x34, 7, body⟩)
      ∧ (∀ x ∈ [((15 : Byte), true), (16, false), (255, false)], x.1.toNat < 16 ↔ x.2 = true)
      ∧ (∀ x ∈ [((3 : Byte), true), (4, false), (255, false)], x.1.toNat < 4 ↔ x.2 = true)
      ∧ (∀ x ∈ [((0 : Byte), false), (1, true), (31, true), (32, false), (255, false)], x.1 ≠ 0 ∧ x.1.toNat < 32 ↔ x.2 = true)
      ∧ (∀ x ∈ [((1 : Byte), false), (2, true), (255, true)], 2 ≤ x.1.toNat ↔ x.2 = true)
      ∧ (∀ (i : Fin 16) (src dst : SlotRef),
      let f : Frame := ⟨0x34, 7, [byte i.val, byte src.lane.val, byte src.slot.val, byte dst.lane.val, byte dst.slot.val, RouteMode.always.code]⟩
      Takes (taking f tables) f ∧ HasKinds (taking f tables)
        ∧ (i ≠ 15 → ∃ j t, j ≠ i ∧ (taking f tables).route j = some t ∧ t.dst = ⟨0, 5⟩))
      ∧ (SlotRecord.polled exactRec).lengthRule = some (.exact publishedRec.length)
      ∧ (SlotRecord.polled polledRec).lengthRule = some (.upTo 4) ∧ LengthRule.upTo 4 ≠ .exact publishedRec.length
      ∧ (SlotRecord.published publishedRec).lengthRule = none :=
  ⟨fun _ => takes_taking _ _, by decide +kernel, by decide +kernel, by decide +kernel, by decide +kernel, fun _ _ _ => ⟨takes_taking _ _, hasKinds_tables _, fun h => ⟨15, _, Ne.symm h, rfl, rfl⟩⟩, rfl, rfl, by decide, rfl⟩

/-- A new route at index 0, one in place of the route at 15 with its destination; indexes 15, 16 and 255. -/
theorem witness_RoutesAreSetAndCleared :
    (∀ x ∈ [((0 : Fin 16), (4 : SlotId)), (15, 4), (15, 5)],
      let f : Frame := ⟨0x34, 7, [byte x.1.val, byte (0 : LaneId).val, byte (2 : SlotId).val, byte (0 : LaneId).val, byte x.2.val, RouteMode.onChange.code]⟩
      let s := taking f tables
      Takes s f ∧ (2 : SlotId) ≠ 0 ∧ x.2 ≠ 0 ∧ (s.slot ⟨0, 2⟩).lengthRule = some (.exact publishedRec.length)
        ∧ s.slot ⟨0, x.2⟩ = .published publishedRec ∧ ∀ j t, s.route j = some t → t.dst = ⟨0, x.2⟩ → j = x.1)
      ∧ ∀ b ∈ ([0, 15, 16, 255] : List Byte), Takes (taking ⟨0x35, 7, [b]⟩ tables) ⟨0x35, 7, [b]⟩
        ∧ (16 ≤ b.toNat ∨ ∃ i : Fin 16, b = byte i.val) := by
  refine ⟨fun x hx => ⟨takes_taking _ _, by decide, by revert x; decide +kernel, rfl, ?_, fun j t h e => ?_⟩,
    fun b hb => ⟨takes_taking _ _, by revert b; decide +kernel⟩⟩
  · rcases (by simpa using hx : x = (0, 4) ∨ x = (15, 4) ∨ x = (15, 5)) with rfl | rfl | rfl <;> rfl
  · obtain ⟨rfl, rfl⟩ := route_tables j t h
    rcases (by simpa using hx : x = (0, 4) ∨ x = (15, 4) ∨ x = (15, 5)) with rfl | rfl | rfl
    · exact absurd e (by decide)
    · rfl
    · rfl

theorem witness_ReportCreditIsLimited :
    (∀ n : Byte, Takes (taking ⟨0x38, 7, [n]⟩ tables) ⟨0x38, 7, [n]⟩) ∧ (∀ n ∈ ([17, 255] : List Byte), 16 < n.toNat)
      ∧ ∀ n ∈ ([0, 16] : List Byte), n.toNat ≤ 16 :=
  ⟨fun _ => takes_taking _ _, by decide, by decide⟩

/-- Numbers 65535 and 1 in flight: the second is acknowledged, with reports lost or none, and 0 matches nothing. -/
theorem witness_ReportAckRemovesThroughTheNumber (lost : Nat) (low high : Byte) :
    let f : Frame := ⟨0x39, 7, [low, high]⟩
    let s : State := taking f { tables with
      reports := { inFlight := [⟨65535, .hostSilence true⟩] ++ ⟨1, .hostSilence false⟩ :: [], unsent := [], lostCount := lost, lostKinds := 0 } }
    Takes s f ∧ s.reports.inFlight = [⟨65535, .hostSilence true⟩] ++ ⟨1, .hostSilence false⟩ :: [] ∧ s.reports.lostCount = lost
      ∧ (∀ r ∈ s.reports.inFlight, r.seq ≠ (0 : Byte).toNat + 256 * (0 : Byte).toNat)
      ∧ (⟨1, .hostSilence false⟩ : SentReport).seq = (1 : Byte).toNat + 256 * (0 : Byte).toNat
      ∧ ∀ x ∈ [(⟨65535, .hostSilence true⟩ : SentReport)], x.seq ≠ (1 : Byte).toNat + 256 * (0 : Byte).toNat :=
  ⟨takes_taking _ _, rfl, rfl, by simp [taking, State.onHli], rfl, by simp⟩

/-! ## Witnesses: the transaction and its ending -/

theorem witness_TheCallFollowsTheGap :
    (∀ k : CallKind, ∀ p ∈ [Phase.gap, .call, .await],
      ((calling (started k p)).lane 0).transaction = some (started k p) ∧ (started k p).phase = p ∧ (started k p).kind = k)
      ∧ (((calling (received [1])).lane 0).transaction = some (received [1]) ∧ (received [1]).phase = .receive
        ∧ ((calling (received [1])).lane 0).line.cell = none)
      ∧ (⟨0, 0, 1⟩ : Samples 1).levels true = 0#1 ∧ (⟨0, 1, 1⟩ : Samples 1).levels true = 1#1 :=
  ⟨fun _ _ _ => ⟨rfl, rfl, rfl⟩, ⟨rfl, rfl, rfl⟩, by decide, by decide⟩

theorem sent_levels (v : Byte) : (sent v).levels true = 1#1 ++ v := by simp [sent, Samples.levels]

/-- A lane that receives on slot 1, whose rule admits 0 to 12, or on the contended slot 3. -/
def receiving (t : Transaction) : State := calling t (s := tables.setSlot ⟨0, 1⟩ (.polled { polledRec with rule := .upTo 12 }))

theorem witness_CellsThatPassAreHeld :
    (∀ (t : Transaction) (v : Byte), ((receiving t).lane 0).transaction = some t
      ∧ (sent v).levels ((receiving t).lane 0).config.sampleFilter = 1#1 ++ v ∧ ((receiving t).lane 0).line.fits (1#1 ++ v) = true)
      ∧ (∀ bits ∈ [[], [true, false], [true, false, true, true, false, false, false, true]],
          ((onLine0 (fun x => { x with cell := some bits }) (receiving (started .polled .receive))).lane 0).line.fits (1#1 ++ 0x8D#8) = true)
      ∧ (∀ n ∈ ([1, 31] : List (BitVec 5)), (started .contended .receive).awaitsTag ∧ n ≠ 0)
      ∧ (∀ length ∈ [0, 12], (started .polled .receive).phase = .receive ∧ (started .polled .receive).awaitsHeader ∧ length ≤ 12
          ∧ ((receiving (started .polled .receive)).slot ⟨0, 1⟩).lengthRule = some (.upTo 12) ∧ (LengthRule.upTo 12).admits length = true)
      ∧ ({ started .contended .receive with tag := some 1 } : Transaction).awaitsHeader
      ∧ (∀ tag ∈ [none, some 31], ({ started .contended .receive with tag, header := some ⟨0, true⟩ } : Transaction).header = some ⟨0, true⟩)
      ∧ ({ started .polled .receive with header := some ⟨1, true⟩ } : Transaction).awaitsData
      ∧ ({ started .contended .receive with tag := some 1, header := some ⟨0, true⟩ } : Transaction).awaitsCheck :=
  ⟨fun _ v => ⟨rfl, sent_levels v, rfl⟩, by decide, by decide, fun length h => ⟨rfl, rfl, by revert length; decide, rfl, by revert length; decide⟩,
    rfl, fun _ _ => rfl, rfl, rfl⟩

/-- A cell with a dominant stop bit. -/
def broken (v : Byte) : Samples 9 := ⟨0#1 ++ v, 0#1 ++ v, 0#1 ++ v⟩

theorem broken_stop (v : Byte) : ((broken v).levels true).getLsbD 8 = false := by revert v; decide +kernel

theorem reads_low : low.levels true = 0#1 ↔ true = true := by decide

theorem reads_high : high.levels true = 0#1 ↔ false = true := by decide

/-- A contended response received whole but for its check cell. -/
def tagged : Transaction := { started .contended .receive with tag := some 12, header := some ⟨1, true⟩, data := [7] }

/-- Every way in which a transaction ends, in any condition of its lane, at the boundaries of each. -/
theorem witness_EveryEndingSettlesTheAccounts (c : Condition) :
    Ends (calling (started .polled .await) c) 0 (.responseTimeout 0) (started .polled .await) .noResponse 0 0
      ∧ (∀ v : Byte,
          Ends (calling (started .contended .receive) c) 0 (.tagCellReceived 0 (broken v)) (started .contended .receive) .framingError 1 9
          ∧ Ends (calling (started .polled .receive) c) 0 (.headerCellReceived 0 (broken v)) (started .polled .receive) .framingError 1 9
          ∧ Ends (calling { tagged with data := [] } c) 0 (.dataCellReceived 0 (broken v)) { tagged with data := [] } .framingError 3 9
          ∧ Ends (calling tagged c) 0 (.checkCellReceived 0 (broken v)) tagged .framingError 4 9)
      ∧ (∀ v ∈ ([0x60, 0x0C] : List Byte),
          Ends (calling (started .contended .receive) c) 0 (.tagCellReceived 0 (sent v)) (started .contended .receive) .tagError 1 9)
      ∧ (∀ v ∈ ([0xE1, 0x4D] : List Byte),
          Ends (calling (started .polled .receive) c) 0 (.headerCellReceived 0 (sent v)) (started .polled .receive) .headerError 1 9)
      ∧ (∀ n ∈ [5, 12], Ends (calling (started .polled .receive) c) 0 (.headerCellReceived 0 (sent (headerCell n true)))
          (started .polled .receive) .lengthMismatch 1 9)
      ∧ Ends (calling (received [1]) c) 0 (.checkCellReceived 0 (sent (received [1]).responseCrc)) (received [1]) .done 3 9
      ∧ Ends (calling (received [1]) c) 0 (.checkCellReceived 0 (sent ((received [1]).responseCrc + 1))) (received [1]) .checkError 3 9
      ∧ (Ends (calling (received []) c) 0 (.gapTimeout 0) (received []) .gapTimeout 2 0
          ∧ Ends (calling { started .contended .receive with tag := some 31 } c) 0 (.gapTimeout 0)
            { started .contended .receive with tag := some 31 } .gapTimeout 2 0)
      ∧ (∀ m : Bool, Ends (calling { tagged with phase := .window, checkMatched := m } c) 0 (.pendingWindowEnd 0 ⟨0, 0, 0⟩)
            { tagged with phase := .window, checkMatched := m, pendingResult := .seen } (if m then .done else .checkError) 4 9
          ∧ Ends (calling { tagged with phase := .window, checkMatched := m } c) 0 (.pendingWindowEnd 0 ⟨1, 1, 1⟩)
            { tagged with phase := .window, checkMatched := m, pendingResult := .notSeen } (if m then .done else .checkError) 4 9)
      ∧ Ends (calling (started .published .send) c) 0 (.publishComplete 0) (started .published .send) .done 0 0
      ∧ (∀ x ∈ [(0, high, 0), (12, low, 0), (13, high, 0), (22, low, 9)],
          Ends (calling (started .polled .call) c) 0 (.readbackError 0 x.1 x.2.1) (started .polled .call) .readbackError 0 x.2.2)
      ∧ (∀ x ∈ [(0, high, 1, 0), (39, low, 4, 9)],
          let t : Transaction := { started .published .send with sendData := some [1, 2] }
          Ends (calling t c) 0 (.readbackError 0 x.1 x.2.1) t .readbackError x.2.2.1 x.2.2.2)
      ∧ Ends (calling (started .contended .gap) c) 0 (.stuckFault 0) (started .contended .gap) .lineStuck 0 0 := by
  have hf : ∀ t, ((calling t c).lane 0).config.sampleFilter = true := fun _ => rfl
  refine ⟨.noResponse _ rfl rfl, fun v => ⟨?_, ?_, ?_, ?_⟩, fun v hv => ?_, fun v hv => ?_, fun n hn => ?_, ?_, ?_, ⟨?_, ?_⟩,
    fun m => ⟨?_, ?_⟩, .published _ rfl rfl, fun x hx => ?_, fun x hx => ?_, .stuck _ rfl rfl⟩
  · exact .framing _ _ _ rfl rfl (.inl ⟨rfl, rfl⟩) rfl (broken_stop v)
  · exact .framing _ _ _ rfl rfl (.inr (.inl ⟨rfl, rfl⟩)) rfl (broken_stop v)
  · exact .framing _ _ _ rfl rfl (.inr (.inr (.inl ⟨rfl, rfl⟩))) rfl (broken_stop v)
  · exact .framing _ _ _ rfl rfl (.inr (.inr (.inr ⟨rfl, rfl⟩))) rfl (broken_stop v)
  · exact .tagError _ _ v rfl rfl rfl (sent_levels v) rfl (by revert v; decide)
  · exact .headerError _ _ v rfl rfl rfl (sent_levels v) rfl (by revert v; decide)
  · exact .lengthMismatch _ _ (.upTo 4) n true rfl rfl rfl (by revert n; decide) (sent_levels _) rfl rfl (by revert n; decide)
  · have h := Ends.check (s := calling (received [1]) c) (l := 0) (received [1]) (sent (received [1]).responseCrc) _ rfl rfl rfl (by decide)
      (sent_levels _) rfl
    rw [if_pos rfl] at h
    exact h
  · have h := Ends.check (s := calling (received [1]) c) (l := 0) (received [1]) (sent ((received [1]).responseCrc + 1)) _ rfl rfl rfl
      (by decide) (sent_levels _) rfl
    rw [if_neg (by simp)] at h
    exact h
  · exact .gapTimeout _ rfl rfl (.inr rfl) rfl
  · exact .gapTimeout _ rfl rfl (.inl rfl) rfl
  · exact .window { tagged with phase := .window, checkMatched := m } ⟨0, 0, 0⟩ rfl rfl
  · exact .window { tagged with phase := .window, checkMatched := m } ⟨1, 1, 1⟩ rfl rfl
  · rcases (by simpa using hx : x = (0, high, 0) ∨ x = (12, low, 0) ∨ x = (13, high, 0) ∨ x = (22, low, 9)) with rfl | rfl | rfl | rfl
    · exact .readbackCall _ 0 high false rfl rfl rfl reads_high
    · exact .readbackCall _ 12 low true rfl rfl rfl reads_low
    · exact .readbackCall _ 13 high false rfl rfl rfl reads_high
    · exact .readbackCall _ 22 low true rfl rfl rfl reads_low
  · rcases (by simpa using hx : x = (0, high, 1, 0) ∨ x = (39, low, 4, 9)) with rfl | rfl
    · change Ends _ _ _ _ _ (1 + (0 + 0) / 10) ((0 + 0) % 10)
      exact .readbackSend _ 0 high false rfl rfl rfl rfl reads_high
    · change Ends _ _ _ _ _ (1 + (0 + 39) / 10) ((0 + 39) % 10)
      exact .readbackSend _ 39 low true rfl rfl rfl
        (show ((publishCells 4 [1, 2]).flatMap cellLevels)[0 + 39]? = some true by decide +kernel) reads_low

/-- A contended transaction in its pending window. -/
def windowed (source : Source) (allowance : Option Nat) (matched : Bool) (p : PendingResult) : Transaction :=
  { tagged with source, phase := .window, allowance, checkMatched := matched, pendingResult := p }

/-- A window seen with allowance 1 or 7 is followed up after DONE and after CHECK_ERROR, with an active schedule and with an empty one. -/
theorem witness_FollowUpsBeginAtOnce (active : List Entry) :
    let s : Transaction → State := fun t => calling t (s := scheduled none none active)
    ∀ source ∈ [Source.scheduled, .followUp], ∀ n ∈ [1, 7], ∀ m : Bool,
      Ends (s (windowed source (some n) m .notSampled)) 0 (.pendingWindowEnd 0 ⟨0, 0, 0⟩) (windowed source (some n) m .seen)
        (if m then .done else .checkError) 4 9
      ∧ FollowsUp (windowed source (some n) m .seen) (if m then .done else .checkError)
      ∧ ((s (windowed source (some n) m .notSampled)).lane 0).condition = .running
      ∧ ((s (windowed source (some n) m .notSampled)).lane 0).schedules.active = active := by
  intro s source hs n hn m
  exact ⟨.window (windowed source (some n) m .notSampled) ⟨0, 0, 0⟩ rfl rfl,
    ⟨(by simpa using hs : source = .scheduled ∨ source = .followUp), rfl, by cases m <;> simp, rfl, ⟨n, rfl, by revert n; decide⟩, rfl⟩, rfl, rfl⟩

/-- A window seen with allowance 1, and one with allowance 0. -/
theorem witness_EndingReportsFollowTheStages :
    ∀ m : Bool, ∀ n ∈ [0, 1],
      Ends (calling (windowed .scheduled (some n) m .notSampled)) 0 (.pendingWindowEnd 0 ⟨0, 0, 0⟩) (windowed .scheduled (some n) m .seen)
        (if m then .done else .checkError) 4 9
      ∧ (decide (n = 1) = true ↔ FollowsUp (windowed .scheduled (some n) m .seen) (if m then .done else .checkError)) := by
  intro m n hn
  refine ⟨.window (windowed .scheduled (some n) m .notSampled) ⟨0, 0, 0⟩ rfl rfl, ?_⟩
  rcases (by simpa using hn : n = 0 ∨ n = 1) with rfl | rfl <;> cases m <;> simp [FollowsUp, windowed, tagged, started]

/-- Every polled record, PRESENT or ABSENT, below its absence limit or at it, under each class of outcome; and a record that stays as the
ending leaves it, by the condition, a stuck line or a third readback error, and one that a choice follows. -/
theorem witness_PolledSlotsTrackTheirResponder (r : PolledRec) (c : Condition) :
    let s : Transaction → State := fun t => calling t c (tables.setSlot ⟨0, 1⟩ (.polled r))
    (Ends (s (started .polled .await)) 0 (.responseTimeout 0) (started .polled .await) .noResponse 0 0
        ∧ (s (started .polled .await)).slot ⟨0, 1⟩ = .polled r)
      ∧ (Ends (s (received [])) 0 (.checkCellReceived 0 (sent (received []).responseCrc)) (received []) .done 2 9
        ∧ (s (received [])).slot ⟨0, 1⟩ = .polled r)
      ∧ Ends (s (received [])) 0 (.gapTimeout 0) (received []) .gapTimeout 2 0
      ∧ Ends (s (started .polled .gap)) 0 (.stuckFault 0) (started .polled .gap) .lineStuck 0 0
      ∧ (let u := lane0 (s := s (started .polled .call)) fun L => { L with readbackRun := 2 }
        Ends u 0 (.readbackError 0 0 high) (started .polled .call) .readbackError 0 0 ∧ 2 ≤ (u.lane 0).readbackRun)
      ∧ ∀ o ∈ [TxOutcome.done, .noResponse, .gapTimeout],
          ¬ (Condition.running ≠ .running ∨ FollowsUp (received []) o ∨ o = .lineStuck ∨ (o = .readbackError ∧ 2 ≤ 0)) := by
  refine ⟨⟨.noResponse _ rfl rfl, rfl⟩, ⟨?_, rfl⟩, .gapTimeout _ rfl rfl (.inr rfl) rfl, .stuck _ rfl rfl,
    ⟨.readbackCall _ 0 high false rfl rfl rfl reads_high, le_rfl⟩, fun o ho => ?_⟩
  rotate_left
  · rcases (by simpa using ho : o = .done ∨ o = .noResponse ∨ o = .gapTimeout) with rfl | rfl | rfl <;> simp [FollowsUp, received, started]
  have h := Ends.check (s := calling (received []) c (tables.setSlot ⟨0, 1⟩ (.polled r))) (l := 0) (received [])
    (sent (received []).responseCrc) _ rfl rfl rfl (by decide) (sent_levels _) rfl
  rw [if_pos rfl] at h
  exact h

/-- A contended slot after every window and after NO_RESPONSE of every source, and a published slot and the sleep slot. -/
theorem witness_ContendedAndPublishedEndings (r : ContendedRec) (p : PublishedRec) (m : Bool) :
    (let t := windowed .oneShot none m .notSampled
      let s := calling t (s := tables.setSlot ⟨0, 3⟩ (.contended r))
      Ends s 0 (.pendingWindowEnd 0 ⟨0, 0, 0⟩) (windowed .oneShot none m .seen) (if m then .done else .checkError) 4 9
        ∧ s.slot ⟨0, 3⟩ = .contended r ∧ (false = true ↔ FollowsUp (windowed .oneShot none m .seen) (if m then .done else .checkError)))
      ∧ (∀ source ∈ [Source.scheduled, .followUp, .oneShot],
        let t := { started .contended .await with source }
        let s := calling t (s := tables.setSlot ⟨0, 3⟩ (.contended r))
        Ends s 0 (.responseTimeout 0) t .noResponse 0 0 ∧ s.slot ⟨0, 3⟩ = .contended r ∧ (false = true ↔ FollowsUp t .noResponse))
      ∧ (let s := calling (started .published .send) (s := tables.setSlot ⟨0, 4⟩ (.published p))
        Ends s 0 (.publishComplete 0) (started .published .send) .done 0 0 ∧ s.slot ⟨0, 4⟩ = .published p
          ∧ (false = true ↔ FollowsUp (started .published .send) .done))
      ∧ let t : Transaction := { started .published .send with source := .sleepCall, slot := 0, sendData := some [0x5A] }
        Ends (calling t .sleepPending) 0 (.publishComplete 0) t .done 0 0 ∧ (calling t .sleepPending).slot ⟨0, 0⟩ = sleepSlot none
          ∧ (false = true ↔ FollowsUp t .done) :=
  ⟨⟨.window (windowed .oneShot none m .notSampled) ⟨0, 0, 0⟩ rfl rfl, rfl, by simp [FollowsUp, windowed]⟩,
    fun _ _ => ⟨.noResponse _ rfl rfl, rfl, by simp [FollowsUp]⟩, ⟨.published _ rfl rfl, rfl, by simp [FollowsUp, started]⟩,
    .published _ rfl rfl, rfl, by simp [FollowsUp]⟩

/-- A route of either mode from slot 2, which accepts an update, to slot 5, whatever slot 5 holds. -/
theorem witness_AcceptedUpdatesFeedTheirRoutes (mode : RouteMode) (p : PublishedRec) :
    let t : Transaction := { received [1, 2] with slot := 2 }
    let s := calling t (s := (tables.setSlot ⟨0, 5⟩ (.published p)).setRoute 15 (some { src := ⟨0, 2⟩, dst := ⟨0, 5⟩, mode }))
    Ends s 0 (.checkCellReceived 0 (sent t.responseCrc)) t .done 4 9
      ∧ (∀ i j x y, s.route i = some x → s.route j = some y → x.dst = y.dst → i = j)
      ∧ (s.slot ⟨0, 2⟩ = .polled exactRec ∧ s.route 15 = some { src := ⟨0, 2⟩, dst := ⟨0, 5⟩, mode } ∧ s.slot ⟨0, 5⟩ = .published p)
      ∧ ∀ i x, s.route i = some x → x.dst ≠ ⟨0, 4⟩ := by
  intro t s
  have hr : ∀ i x, s.route i = some x → i = 15 ∧ x.dst = ⟨0, 5⟩ := by
    intro i x h
    have e : s.route i = if i = 15 then some { src := ⟨0, 2⟩, dst := ⟨0, 5⟩, mode } else none := by fin_cases i <;> rfl
    rw [e] at h
    split at h
    · cases h; exact ⟨‹_›, rfl⟩
    · cases h
  refine ⟨?_, fun i j x y hi hj _ => (hr i x hi).1.trans (hr j y hj).1.symm, ⟨rfl, rfl, rfl⟩, fun i x h => by rw [(hr i x h).2]; decide⟩
  have h := Ends.check (s := s) (l := 0) t (sent t.responseCrc) _ rfl rfl rfl (by decide) (sent_levels _) rfl
  rw [if_pos rfl] at h
  exact h

/-- LINE_STUCK and READBACK_ERROR with a run of 1 and 2, in every condition; a sleep call that ends DONE; and a DONE with an active schedule
and with none. -/
theorem witness_EndingsActOnTheCondition (c : Condition) (active : List Entry) (staged : Option (List Entry)) :
    (∀ k : CallKind, Ends (calling (started k .gap) c) 0 (.stuckFault 0) (started k .gap) .lineStuck 0 0 ∧ ¬ FollowsUp (started k .gap) .lineStuck)
      ∧ (∀ n ∈ [0, 1, 2], let s := lane0 (s := calling (started .polled .call) c) fun L => { L with readbackRun := n }
          Ends s 0 (.readbackError 0 22 low) (started .polled .call) .readbackError 0 9
            ∧ ¬ FollowsUp (started .polled .call) .readbackError ∧ (s.lane 0).readbackRun = n ∧ (s.lane 0).condition = c)
      ∧ (let t : Transaction := { started .published .send with source := .sleepCall, slot := 0, sendData := some [0x5A] }
        Ends (calling t .sleepPending) 0 (.publishComplete 0) t .done 0 0 ∧ ¬ FollowsUp t .done
          ∧ ((calling t .sleepPending).lane 0).condition = .sleepPending)
      ∧ let s := calling (started .published .send) c (scheduled none staged active)
        Ends s 0 (.publishComplete 0) (started .published .send) .done 0 0 ∧ ¬ FollowsUp (started .published .send) .done
          ∧ (s.lane 0).condition = c ∧ (s.lane 0).schedules.active = active ∧ (s.lane 0).schedules.staged = staged :=
  ⟨fun _ => ⟨.stuck _ rfl rfl, by simp [FollowsUp]⟩,
    fun _ _ => ⟨.readbackCall _ 22 low true rfl rfl rfl reads_low, by simp [FollowsUp], rfl, rfl⟩,
    ⟨.published _ rfl rfl, by simp [FollowsUp], rfl⟩, .published _ rfl rfl, by simp [FollowsUp, started], rfl, rfl, rfl⟩

/-! ## Witnesses: the choice, the line and the condition -/

/-- Lane 0 of `tables` RUNNING with no transaction, one-shots, a round state and an active schedule. -/
def choosing (oneShots : List OneShot) (round : RoundState) (active : List Entry) (staged : Option (List Entry) := none) : State :=
  lane0 (s := tables) fun L => { L with condition := .running, oneShots, round, schedules := { builder := none, staged, active } }

theorem choosing_lane (o : List OneShot) (r : RoundState) (a : List Entry) (st : Option (List Entry)) :
    let L := (choosing o r a st).lane 0
    L.condition = .running ∧ L.transaction = none ∧ L.oneShots = o ∧ L.round = r ∧ L.schedules.active = a ∧ L.schedules.staged = st
      ∧ L.config.probeInterval = 8 := ⟨rfl, rfl, rfl, rfl, rfl, rfl, rfl⟩

/-- Pauses of 0 and 16; a one-shot with the streak at 1, at 2 while the round pauses, and at 2 with no entry left; an entry with the streak
at 0 and with one-shots waiting at 2, due and not due, on a slot of each kind, skip counts 6 and 7 of a probe interval of 8; a round
that ends onto its schedule, onto a staged one and onto an empty one; and a choice that begins nothing, without entries and in a pause. -/
theorem witness_TheChoiceGoesInOrder :
    let o : OneShot := { handle := 1, slot := 1, kind := .poll, data := none }
    let r : RoundState := { counter := 5, position := 0, worked := false, pause := none, streak := 0 }
    let e : SlotId → Entry := fun k => ⟨k, 1, 1⟩
    (∀ n ∈ [0, 16], ((choosing [] { r with pause := some n } [e 1]).lane 0).round.pause = some n
      ∧ ((choosing [] { r with pause := some n } [e 1]).lane 0).condition = .running)
      ∧ (∀ x ∈ [({ r with streak := 1 }, [e 1]), ({ r with streak := 2, pause := some 0 }, [e 1]), ({ r with streak := 2, position := 1 }, [e 1])],
          let L := (choosing [o] x.1 x.2).lane 0
          L.transaction = none ∧ L.oneShots = o :: [] ∧ (choosing [o] x.1 x.2).slot ⟨0, 1⟩ = .polled polledRec
            ∧ (L.round.streak < 2 ∨ L.round.pause.isSome = true ∨ L.schedules.active.length ≤ L.round.position))
      ∧ (∀ q ∈ [([], r), ([o], { r with streak := 2 })], ∀ k ∈ ([1, 3, 4] : List SlotId),
          let L := (choosing q.1 q.2 [e k]).lane 0
          (L.oneShots = [] ∨ 2 ≤ L.round.streak) ∧ L.round.pause = none ∧ L.schedules.active[L.round.position]? = some (e k)
            ∧ L.round.counter.toNat % 2 ^ (e k).exponent.val = (e k).phase)
      ∧ ¬ ((4 : BitVec 16).toNat % 2 ^ (e 1).exponent.val = (e 1).phase)
      ∧ ((choosing [] r [e 1]).slot ⟨0, 1⟩ = .polled polledRec ∧ polledRec.presence = .present
        ∧ (choosing [] r [e 3]).slot ⟨0, 3⟩ = .contended contendedRec ∧ (choosing [] r [e 4]).slot ⟨0, 4⟩ = .published publishedRec
        ∧ publishedRec.data ≠ none
        ∧ ((choosing [] r [e 4]).setSlot ⟨0, 4⟩ (.published { publishedRec with data := none })).slot ⟨0, 4⟩
          = .published { publishedRec with data := none })
      ∧ (∀ n ∈ [6, 7], ((choosing [] r [e 1]).setSlot ⟨0, 1⟩ (.polled { polledRec with presence := .absent, skipCount := n })).slot ⟨0, 1⟩
          = .polled { polledRec with presence := .absent, skipCount := n } ∧ (n + 1 < 8 ↔ n = 6))
      ∧ (∀ st ∈ [none, some [e 2], some []], ∀ worked : Bool,
          let L := (choosing [] { r with position := 1, worked } [e 1] st).lane 0
          L.oneShots = [] ∧ L.round.pause = none ∧ L.schedules.active ≠ [] ∧ L.schedules.active.length ≤ L.round.position)
      ∧ ∀ x ∈ [(r, []), ({ r with pause := some 0 }, [e 1])],
          let L := (choosing [] x.1 x.2).lane 0
          L.oneShots = [] ∧ (L.schedules.active = [] ∨ L.round.pause.isSome = true) := by
  refine ⟨by decide, by decide, by decide, by decide, ⟨rfl, rfl, rfl, rfl, by decide, rfl⟩, fun n h => ⟨rfl, by revert n; decide⟩, by decide,
    by decide⟩

theorem witness_StuckLinesFault (c : Condition) :
    ((inCondition c).lane 0).condition = c ∧ ((inCondition c).lane 0).transaction = none ∧ ((inCondition c).lane 0).line.driving = false :=
  ⟨rfl, rfl, rfl⟩

theorem witness_LanesSleepAndWake :
    (((inCondition .sleepPending).lane 0).condition = .sleepPending ∧ ((inCondition .sleepPending).lane 0).transaction = none)
      ∧ ((inCondition .sleeping).lane 0).condition = .sleeping ∧ (∀ run ∈ [3, 29], 3 ≤ run ∧ run < 30)
      ∧ let s := lane0 (s := inCondition .waking) fun L => { L with line := { L.line with driving := true } }
        (s.lane 0).condition = .waking ∧ (s.lane 0).line.driving = true :=
  ⟨⟨rfl, rfl⟩, rfl, by decide, rfl, rfl⟩

theorem witness_SettledAndRecoveredLanesResume (resume : Resume) :
    (let s := lane0 (s := inCondition .waking) fun L => { L with resume };
      (s.lane 0).condition = .waking ∧ (s.lane 0).line.driving = false ∧ (s.lane 0).resume = resume)
      ∧ ∀ recover armed : Bool, ∀ run ∈ [0, 127],
        let s := lane0 (s := inCondition .faulted) fun L =>
          { L with
            resume, recoveryArmed := armed, config := { L.config with autoRecover := recover }, line := { L.line with recessiveRun := run } }
        (s.lane 0).condition = .faulted ∧ (s.lane 0).line.recessiveRun < 128 ∧ (s.lane 0).config.autoRecover = recover
          ∧ (s.lane 0).recoveryArmed = armed :=
  ⟨⟨rfl, rfl, rfl⟩, fun _ _ run h => ⟨rfl, show run < 128 by revert run; decide, rfl, rfl⟩⟩

/-- Lanes between transactions in every condition, with runs of 0 to 30; a transaction in each phase; the first bit of a call, one before its
last and its last, and the same of a publish of one byte; and the first and the last bit of a cell in each place of a response. -/
theorem witness_DominantBitsRestartTheWaits :
    (∀ c ∈ [Condition.halted, .running, .sleepPending, .sleeping, .waking, .faulted], ∀ n ∈ [0, 1, 28, 29, 30],
      let L := (onLine0 (fun x => { x with dominantRun := n }) (inCondition c)).lane 0
      L.transaction = none ∧ L.line.driving = false ∧ L.condition = c ∧ L.line.dominantRun = n)
      ∧ (let L := (onLine0 (fun x => { x with driving := true }) (inCondition .waking)).lane 0
        L.transaction = none ∧ L.line.driving = true)
      ∧ (low.levels true = 0#1 ∧ high.levels true = 1#1)
      ∧ (∀ p ∈ [Phase.gap, .call, .await, .receive, .send, .window],
          ((calling (started .published p)).lane 0).transaction = some (started .published p) ∧ (started .published p).phase = p
            ∧ ((calling (started .published p)).lane 0).line.cell = none)
      ∧ (∀ x ∈ [(0, false, some false), (11, false, some true), (12, true, some false), (22, true, none)],
          let levels := List.replicate 12 false ++ [true] ++ cellLevels (numberCell 4)
          ((onLine0 (fun y => { y with sent := x.1 }) (calling (started .published .call))).lane 0).line.sent = x.1
            ∧ levels[x.1]? = some x.2.1 ∧ levels[x.1 + 1]? = x.2.2 ∧ (levels.length = x.1 + 1 ↔ x.2.2 = none))
      ∧ (∀ x ∈ [(0, false, some true), (9, true, some false), (29, true, none)],
          let levels := (publishCells 4 [1]).flatMap cellLevels
          levels[x.1]? = some x.2.1 ∧ levels[x.1 + 1]? = x.2.2 ∧ (levels.length = x.1 + 1 ↔ x.2.2 = none))
      ∧ (∀ bits : List Bool, let s := onLine0 (fun x => { x with cell := some bits }) (calling (received []))
          (s.lane 0).transaction = some (received []) ∧ (received []).phase = .receive ∧ (s.lane 0).line.cell = some bits)
      ∧ (∀ bits ∈ [[], List.replicate 7 true], (bits : List Bool).length < 8)
      ∧ (let bits := [true, false, false, false, true, false, true, false]
        bits.length = 8 ∧ (List.range 9).map ((sent 0x51).levels true).getLsbD = bits ++ [decide (high.levels true = 1#1)])
      ∧ (started .contended .receive).awaitsTag ∧ (started .polled .receive).awaitsHeader
      ∧ ({ received [] with header := some ⟨1, false⟩ } : Transaction).awaitsData ∧ (received []).awaitsCheck := by
  refine ⟨fun _ _ _ _ => ⟨rfl, rfl, rfl, rfl⟩, ⟨rfl, rfl⟩, by decide, fun _ _ => ⟨rfl, rfl, rfl⟩, fun x hx => ⟨rfl, ?_⟩, by decide +kernel,
    fun _ => ⟨rfl, rfl, rfl⟩, by decide, by decide, by decide⟩
  revert x
  decide +kernel

/-- A command answers a next state. -/
def answersNext (c : Instr) (s : State) : Bool := (after c s fun _ => ()).isSome

theorem exists_next {c : Instr} {s : State} (h : answersNext c s = true) : ∃ t, exec c s = .next t := by
  simp only [answersNext, after] at h
  split at h
  · exact ⟨_, ‹_›⟩
  all_goals cases h

theorem witness_LaneEventsStayOnTheirLane :
    (Instr.responseTimeout 0).lane = some 0 ∧ ∃ t, exec (.responseTimeout 0) (calling (started .polled .await)) = .next t :=
  ⟨rfl, exists_next (by decide +kernel)⟩

/-! ## Witnesses: the Report Queue, the frame and the invariants -/

/-- A merge into a queue of 48 records; and records that merge with nothing, in a queue of 47 and of 48. -/
theorem witness_ReportsMergeAppendOrDrop :
    (let q : ReportQueue :=
        { inFlight := [⟨1, update 1 0⟩], unsent := .hostSilence true :: update 2 254 :: List.replicate 45 (.hostSilence false), lostCount := 0
          lostKinds := 0 };
      q.inFlight.length + q.unsent.length = 48
        ∧ ∃ old, q.unsent = [.hostSilence true] ++ .slotUpdate ⟨1, 7⟩ old :: List.replicate 45 (.hostSilence false)
          ∧ (⟨1, 7⟩ : SlotRef) ∉ updateRefs [.hostSilence true])
      ∧ ∀ n ∈ [46, 47],
        let q : ReportQueue := { inFlight := [⟨1, update 1 0⟩], unsent := List.replicate n (.hostSilence true), lostCount := 65535, lostKinds := 0 }
        (∀ ref u, update 2 0 = .slotUpdate ref u → ref ∉ updateRefs q.unsent) ∧ q.inFlight.length + q.unsent.length = n + 1 := by
  refine ⟨⟨by decide +kernel, _, rfl, by decide⟩, fun n h => ⟨?_, by simp; omega⟩⟩
  rintro ref u ⟨⟩
  revert n
  decide +kernel

theorem witness_FramesAreReadBack : ∀ n ∈ [0, 64], (⟨0x22, 255, List.replicate n 0⟩ : Frame).body.length ≤ 64 := by decide +kernel

/-- Numbers 65535 and 1 in flight, and updates of two slots pending; a link with a full buffer, a reply and a cache entry. -/
def reporting : State :=
  { (rich .running (some (awaiting false)) 7 [.sendReply]).onHli (fun h =>
      { h with
        receiver := .insideFrame, buffer := [⟨1, 7, []⟩, ⟨1, 8, []⟩], replies := [⟨7, 1, .ok, []⟩], ready := none
        cache := [⟨crc16 [], ⟨7, 1, .ok, []⟩⟩], counts := ⟨65535, 0, 65535, 0⟩, silenceLimit := 1, silenceTimer := .running 1
        credit := 14, nextReportSeq := 2 }) with
    reports := { inFlight := [⟨65535, update 1 0⟩, ⟨1, update 2 0⟩], unsent := [update 3 255], lostCount := 65535, lostKinds := 0x7F } }

/-- A step that answers next, for the invariants. -/
theorem exists_step {s : State} {c : Instr} {rest : List Instr} (hp : s.pending = c :: rest)
    (h : answersNext c { s with pending := rest } = true) : ∃ t, step s = .next t := by
  obtain ⟨t, ht⟩ := exists_next h
  refine ⟨t, ?_⟩
  obtain ⟨_, _, _, _, _, _, p⟩ := s
  subst hp
  exact ht

theorem witness_TheHostLinkStaysInBounds :
    QueueWf reporting.reports reporting.hli.credit reporting.hli.nextReportSeq ∧ LinkWf reporting.hli ∧ (∃ t, step reporting = .next t)
      ∧ reporting.hli.transmitting = none
      ∧ (let s := reporting.onHli fun h => { h with transmitting := some (.reply ⟨7, 1, .ok, []⟩) }
        s.hli.transmitting = some (.reply ⟨7, 1, .ok, []⟩)
          ∧ (OutFrame.reply ⟨7, 1, .ok, []⟩).frame.bits[0]? = some false ∧ (OutFrame.reply ⟨7, 1, .ok, []⟩).frame.bits[79]? = some true
          ∧ (OutFrame.reply ⟨7, 1, .ok, []⟩).frame.bits.length = 80) := by
  refine ⟨?_, ?_, exists_step rfl (by decide +kernel), rfl, rfl, by decide +kernel⟩
  · have consecutive : Consecutive reporting.reports.inFlight 2 := by simp [reporting, Consecutive, nextNumber]
    constructor
    case consecutive => exact consecutive
    case merged =>
      intro ref u hu
      have h : u = ⟨1, none, false, false, 0, []⟩ ∨ u = ⟨2, none, false, false, 0, []⟩ ∨ u = ⟨3, none, false, false, 255, []⟩ := by
        simp [reporting, update] at hu
        tauto
      rcases h with rfl | rfl | rfl <;> decide
    all_goals decide
  · constructor <;> decide

theorem reset_wf : LaneWf Lane.reset := by
  constructor <;> simp [Lane.reset]
  constructor <;> simp [LaneConfig.default]

theorem lanesWf_lane0 {f : Lane → Lane} (h : LaneWf (f Lane.reset)) : LanesWf (lane0 f) := by
  intro l
  fin_cases l
  · exact h
  all_goals exact reset_wf

/-- Lane 0 RUNNING at the first bit of what it sends. -/
def driving (t : Transaction) : State :=
  lane0 fun L =>
    { L with condition := .running, transaction := some t, line := { L.line with driving := true, position := some (t.placeSent 0) } }

theorem driving_wf : ∀ p ∈ [Phase.call, .send], LanesWf (driving { started .published p with sendData := some [1, 2] }) := by
  intro p hp
  refine lanesWf_lane0 ?_
  rcases (by simpa using hp : p = .call ∨ p = .send) with rfl | rfl <;> constructor <;> simp [Lane.reset, started]
  all_goals first | decide +kernel | exact reset_wf.config | (constructor <;> simp)

/-- A RUNNING lane in AWAIT, a HALTING one, and lanes at rest, with commands that begin, end and halt. -/
theorem witness_LanesHoldWhatTheirConditionAllows :
    (LanesWf (rich .running (some (awaiting false)) 7 [.responseTimeout 0]) ∧ ∃ t, step (rich .running (some (awaiting false)) 7 [.responseTimeout 0]) = .next t)
      ∧ (LanesWf (rich .halting (some (awaiting true)) 8 [.responseTimeout 0])
        ∧ ∃ t, step (rich .halting (some (awaiting true)) 8 [.responseTimeout 0]) = .next t)
      ∧ (LanesWf (rich .waking none 8 [.wakeSettleComplete 0]) ∧ ∃ t, step (rich .waking none 8 [.wakeSettleComplete 0]) = .next t)
      ∧ (∀ p ∈ [Phase.call, .send], let t : Transaction := { started .published p with sendData := some [1, 2] }
        LanesWf (driving t) ∧ ((driving t).lane 0).transaction = some t ∧ t.levelsSent[((driving t).lane 0).line.sent]? = some false)
      ∧ LanesWf (lane0 fun L => { L with condition := .waking, line := { L.line with driving := true } })
      ∧ LanesWf (inCondition .sleeping) :=
  ⟨⟨lanesWf_rich _ (.inr (.inl ⟨rfl, rfl⟩)) (by decide), exists_step rfl (by decide +kernel)⟩,
    ⟨lanesWf_rich _ (.inr (.inr ⟨rfl, rfl⟩)) (by decide), exists_step rfl (by decide +kernel)⟩,
    ⟨lanesWf_rich _ (.inl ⟨rfl, .inr (.inr rfl)⟩) (by decide), exists_step rfl (by decide +kernel)⟩,
    fun p hp => ⟨driving_wf p hp, rfl, by revert p; decide +kernel⟩, lanesWf_lane0 (by constructor <;> simp [Lane.reset]; exact reset_wf.config),
    lanesWf_lane0 (by constructor <;> simp [Lane.reset]; exact reset_wf.config)⟩

theorem witness_TablesAgreeAndNothingFaults :
    let s := rich .running (some (awaiting false)) 7 [.responseTimeout 0]
    LanesWf s ∧ TablesWf s ∧ ∃ t, step s = .next t :=
  ⟨lanesWf_rich _ (.inr (.inl ⟨rfl, rfl⟩)) (by decide), tablesWf_rich _ (.inr (.inl ⟨rfl, rfl⟩)) 7, exists_step rfl (by decide +kernel)⟩

theorem witness_PoolAndHandlesStayInBounds :
    let s := rich .running (some (awaiting false)) 7 [.responseTimeout 0]
    PoolWf s ∧ LanesWf s ∧ HandlesWf s ∧ ∃ t, step s = .next t :=
  ⟨poolWf_rich _ _ _ _, lanesWf_rich _ (.inr (.inl ⟨rfl, rfl⟩)) (by decide), handlesWf_rich _ _ _ (.inr (.inl ⟨rfl, rfl⟩)) 7 (by decide),
    exists_step rfl (by decide +kernel)⟩

end Sys2Proof.Tests
end

section
/-!
What an event of one lane does, as a chain of moves: changes of the lane's own engine with reports handed over, and changes of slot
records that are of the lane or fed by a route (R24, R111).
-/

namespace Sys2Proof.Machine

open Sys2Proof

variable {l : LaneId} {s t u : State}

/-! ## Moves -/

/-- A record as a block hands it over: a SLOT_UPDATE has had nothing merged into it yet (R138). -/
def Report.Fresh (r : Report) : Prop := ∀ ref u, r = .slotUpdate ref u → u.merged = 0

theorem fresh_laneChange (l : LaneId) (old new : Condition) (cause : Cause) : (Report.laneChange l old new cause).Fresh := nofun
theorem fresh_oneShotDone (l h o g d) : (Report.oneShotDone l h o g d).Fresh := nofun

theorem fresh_swapReports (L : Lane) (l : LaneId) : ∀ r ∈ L.swapReports l, r.Fresh := by
  unfold Lane.swapReports
  split
  · simp
  · simp [Report.Fresh]

theorem fresh_completions (L : Lane) (l : LaneId) (o : Completion) : ∀ r ∈ L.completions l o, r.Fresh := by
  simp [Lane.completions, Report.Fresh]

/-- A chain of what a lane engine does of itself. -/
inductive LaneMoves (l : LaneId) : State → State → Prop where
  | refl (s : State) : LaneMoves l s s
  | trans {s t u : State} : LaneMoves l s t → LaneMoves l t u → LaneMoves l s u
  /-- The lane's engine changes, but for its configuration and its builder, and fresh reports are handed over. -/
  | change (s : State) (M : Lane) (rs : List Report) : M.config = (s.lane l).config →
      M.schedules.builder = (s.lane l).schedules.builder → (∀ r ∈ rs, r.Fresh) →
      LaneMoves l s { s.setLane l M with reports := rs.foldl ReportQueue.handOver s.reports }
  /-- A slot of the lane, or the destination of a route. -/
  | setSlot (s : State) (r : SlotRef) (x : SlotRecord) : r.lane = l ∨ RouteFed s r → LaneMoves l s (s.setSlot r x)

theorem LaneMoves.onLane (s : State) (f : Lane → Lane) (hc : (f (s.lane l)).config = (s.lane l).config)
    (hb : (f (s.lane l)).schedules.builder = (s.lane l).schedules.builder) : LaneMoves l s (s.onLane l f) :=
  .change s (f (s.lane l)) [] hc hb (by simp)

theorem LaneMoves.report (s : State) {r : Report} (h : r.Fresh) : LaneMoves l s (s.report r) := by
  have := LaneMoves.change (l := l) s (s.lane l) [r] rfl rfl (by simpa using h)
  rwa [State.setLane_lane] at this

theorem LaneMoves.ite {p : Prop} [Decidable p] (ht : LaneMoves l s t) (hu : LaneMoves l s u) :
    LaneMoves l s (if p then t else u) := by split <;> assumption

theorem LaneMoves.onlyLane (h : LaneMoves l s t) : OnlyLane l s t := by
  induction h with
  | refl s => exact .refl l s
  | trans _ _ h k => exact h.trans k
  | change s M rs hc hb _ => exact .setLane_reports rs hc hb
  | setSlot s r x _ => exact .setSlot l s r x

theorem LaneMoves.slot_of_not_routeFed (h : LaneMoves l s t) {r : SlotRef} (hl : r.lane ≠ l) (hr : ¬ RouteFed s r) :
    t.slot r = s.slot r := by
  induction h with
  | refl | change => rfl
  | @trans s t u hst htu h k =>
    have hr' : ¬ RouteFed t r := by simpa [RouteFed, State.route, hst.onlyLane.routes] using hr
    exact (k hr').trans (h hr)
  | setSlot s q x hq =>
    refine s.slot_setSlot_of_ne x ?_
    rintro rfl
    exact hq.elim hl hr

theorem LaneMoves.reports (h : LaneMoves l s t) :
    ∃ rs : List Report, (∀ r ∈ rs, r.Fresh) ∧ t.reports = rs.foldl ReportQueue.handOver s.reports := by
  induction h with
  | refl => exact ⟨[], by simp, rfl⟩
  | trans _ _ h k =>
    obtain ⟨a, ha, h⟩ := h
    obtain ⟨b, hb, k⟩ := k
    exact ⟨a ++ b, by simpa [or_imp, forall_and] using ⟨ha, hb⟩, by rw [k, h, List.foldl_append]⟩
  | change s M rs _ _ hf => exact ⟨rs, hf, rfl⟩
  | setSlot => exact ⟨[], by simp, rfl⟩

/-! ## The choice and the changes of condition -/

theorem LaneMoves.begin (l : LaneId) (s : State) (t : Transaction) : LaneMoves l s (s.begin l t) := .onLane s _ rfl rfl

theorem LaneMoves.beginOneShot (l : LaneId) (s : State) : LaneMoves l s (beginOneShot l s) := by
  unfold Machine.beginOneShot
  split
  · exact .refl s
  · exact (LaneMoves.onLane s _ rfl rfl).trans (.begin ..)

theorem LaneMoves.beginScheduled (l : LaneId) (s : State) (slot : SlotId) (kind : CallKind) (allowance : Option Nat) :
    LaneMoves l s (beginScheduled l slot kind allowance s) := (LaneMoves.onLane s _ rfl rfl).trans (.begin ..)

theorem LaneMoves.considerEntries (l : LaneId) (es : List Entry) (s : State) : LaneMoves l s (considerEntries l es s) := by
  induction es generalizing s with
  | nil => exact .refl s
  | cons e rest ih =>
    have moved : LaneMoves l s (advancePosition l s) := .onLane s _ rfl rfl
    simp only [Machine.considerEntries]
    split
    · split
      · exact moved.trans (ih _)
      · exact .ite ((moved.trans (.setSlot _ _ _ (.inl rfl))).trans (ih _)) (moved.trans (.beginScheduled ..))
      · exact moved.trans (.beginScheduled ..)
      · exact .ite (moved.trans (ih _)) (moved.trans (.beginScheduled ..))
    · exact moved.trans (ih _)

theorem Lane.builder_swapped (L : Lane) : L.swapped.builder = L.schedules.builder := by
  unfold Lane.swapped; split <;> rfl

theorem LaneMoves.swapStaged (l : LaneId) (s : State) : LaneMoves l s (swapStaged l s) := by
  rw [swapStaged_eq rfl]
  exact .change _ _ _ rfl (Lane.builder_swapped _) (fresh_swapReports _ l)

theorem LaneMoves.endRound (l : LaneId) (s : State) : LaneMoves l s (endRound l s) := by
  rw [endRound_eq rfl]
  exact .change _ _ _ rfl (Lane.builder_swapped _) (fresh_swapReports _ l)

theorem LaneMoves.chooseIn (l : LaneId) (rounds : Nat) (s : State) : LaneMoves l s (chooseIn rounds l s) := by
  induction rounds generalizing s with
  | zero => exact .refl s
  | succ n ih =>
    rw [chooseIn_succ rfl]
    have step : ∀ u, LaneMoves l u (chooseFrom n l (s.lane l) u) := fun u =>
      .ite (.refl u) (.ite (.beginOneShot l u) (.ite ((LaneMoves.endRound l u).trans (ih _)) (.refl u)))
    exact .ite (.beginOneShot l s) (.trans (.ite (.considerEntries ..) (.refl s)) (step _))

theorem LaneMoves.choose (l : LaneId) (s : State) : LaneMoves l s (choose l s) := .chooseIn ..

theorem LaneMoves.changeCondition (l : LaneId) (s : State) (c : Condition) (cause : Cause) :
    LaneMoves l s (changeCondition l c cause s) := (LaneMoves.onLane s _ rfl rfl).trans (.report _ (fresh_laneChange _ _ _ _))

theorem LaneMoves.resetRound (l : LaneId) (s : State) : LaneMoves l s (resetRound l s) := .onLane s _ rfl rfl

theorem LaneMoves.enterRunning (l : LaneId) (s : State) (cause : Cause) : LaneMoves l s (enterRunning l cause s) :=
  (((LaneMoves.changeCondition ..).trans (.swapStaged ..)).trans (.resetRound ..)).trans (.choose ..)

theorem LaneMoves.enterHalted (l : LaneId) (s : State) (cause : Cause) : LaneMoves l s (enterHalted l cause s) :=
  (LaneMoves.changeCondition ..).trans (.swapStaged ..)

theorem LaneMoves.enterResume (l : LaneId) (s : State) (cause : Cause) : LaneMoves l s (enterResume l cause s) := by
  unfold Machine.enterResume
  split
  · exact .enterRunning ..
  · exact .enterHalted ..

theorem LaneMoves.completeQueued (l : LaneId) (s : State) (o : Completion) : LaneMoves l s (completeQueued l o s) := by
  rw [completeQueued_eq o rfl]
  exact .change _ _ _ rfl rfl (fresh_completions _ l o)

theorem LaneMoves.enterFaulted (l : LaneId) (s : State) (cause : Cause) : LaneMoves l s (enterFaulted l cause s) := by
  rw [enterFaulted_eq cause rfl]
  exact .change _ _ _ rfl rfl (by simpa using ⟨fresh_laneChange _ _ _ _, fresh_completions _ l _⟩)

theorem LaneMoves.leaveFaulted (l : LaneId) (s : State) : LaneMoves l s (leaveFaulted l s) :=
  (LaneMoves.onLane s _ rfl rfl).trans (.enterResume ..)

/-! ## The ending of a transaction -/

/-- Feeding the routes held changes their destinations alone (R111). -/
theorem LaneMoves.feedRoutes (l : LaneId) (src : SlotRef) (data : List Byte) (s : State) : LaneMoves l s (feedRoutes src data s) := by
  unfold Machine.feedRoutes
  have fed : ∀ (ts : List Route) (u : State), (∀ t ∈ ts, RouteFed u t.dst) → LaneMoves l u (ts.foldl (copyRoute data) u) := by
    intro ts
    induction ts with
    | nil => exact fun u _ => .refl u
    | cons t ts ih =>
      intro u h
      have hc : LaneMoves l u (copyRoute data u t) := by
        unfold copyRoute
        split
        · exact .ite (.setSlot _ _ _ (.inr (h t (by simp)))) (.refl u)
        · exact .refl u
      refine hc.trans (ih _ fun t' ht' => ?_)
      simpa [RouteFed, State.route, hc.onlyLane.routes] using h t' (by simp [ht'])
  refine fed _ s fun t ht => ?_
  obtain ⟨i, hi⟩ := (s.mem_routeList t).mp (List.mem_filter.mp ht).1
  exact ⟨i, t, hi, rfl⟩

/-- Taking an ending changes the record of its slot and those that routes feed (R8 to R16, R111). -/
theorem LaneMoves.takeEnding (ref : SlotRef) (o : TxOutcome) (d : Delivery) (p : PendingResult) (followUp : Bool) (s : State) :
    LaneMoves ref.lane s (takeEnding ref o d p followUp s) := by
  have own : ∀ (u : State) x, LaneMoves ref.lane u (u.setSlot ref x) := fun u x => .setSlot u ref x (.inl rfl)
  have presence : ∀ p, (Report.slotPresence ref p).Fresh := fun _ => nofun
  unfold Machine.takeEnding
  split
  · exact .refl s
  · unfold endPolled
    split
    · refine ((LaneMoves.trans (own ..) (.ite (.report _ (presence _)) (.refl _))).trans
        (.ite (.report _ ?_) (.refl _))).trans (.feedRoutes ..)
      simp +contextual [Report.Fresh, eq_comm]
    · exact .ite (.ite ((own ..).trans (.report _ (presence _))) (own ..)) (own ..)
    · exact own ..
  · unfold endContended
    split
    · refine ((own ..).trans (.ite (.report _ ?_) (.refl _))).trans (.feedRoutes ..)
      simp +contextual [Report.Fresh, eq_comm]
    · exact own ..
  · exact own ..

theorem LaneMoves.captureFault (l : LaneId) (o : TxOutcome) (slot : SlotId) (cell bit : Nat) (s : State) :
    LaneMoves l s (captureFault l o slot cell bit s) := by
  refine .ite ?_ (.refl s)
  split
  · exact (LaneMoves.onLane s _ rfl rfl).trans (.report _ nofun)
  · exact .onLane s _ rfl rfl

theorem LaneMoves.completeOneShot (l : LaneId) (t : Transaction) (o : TxOutcome) (s : State) :
    LaneMoves l s (completeOneShot l t o s) := by
  unfold Machine.completeOneShot
  split
  · exact .refl s
  · exact .ite (.report _ nofun) (.report _ nofun)

theorem LaneMoves.markWorked (l : LaneId) (s : State) : LaneMoves l s (markWorked l s) := by
  refine .onLane s _ ?_ ?_ <;> split <;> rfl

theorem LaneMoves.actOnCondition (l : LaneId) (t : Transaction) (o : TxOutcome) (followUp : Bool) (s : State) :
    LaneMoves l s (actOnCondition l t o followUp s) := by
  have h : LaneMoves l s (Machine.markWorked l (s.onLane l fun L => { L with transaction := none })) :=
    (LaneMoves.onLane s _ rfl rfl).trans (.markWorked ..)
  refine h.trans (.ite (.begin ..) (.ite (.enterFaulted ..) (.ite (.enterFaulted ..) ?_)))
  split
  · exact (LaneMoves.ite (.swapStaged ..) (.refl _)).trans (.choose ..)
  · exact (LaneMoves.resetRound ..).trans (.enterHalted ..)
  · exact .ite (.refl _) (.begin ..)
  all_goals exact .refl _

theorem LaneMoves.endTransaction (l : LaneId) (o : TxOutcome) (cell bit : Nat) (s : State) :
    LaneMoves l s (endTransaction l o cell bit s) := by
  unfold Machine.endTransaction
  split
  · exact .refl s
  · have settled : ∀ u, LaneMoves l u (settleLine l o u) := fun u => .onLane u _ rfl rfl
    have counted : ∀ u, LaneMoves l u (countEnding l o u) := fun u => .onLane u _ rfl rfl
    exact (((((settled _).trans (.takeEnding ⟨l, _⟩ ..)).trans (counted _)).trans (.captureFault ..)).trans (.completeOneShot ..)).trans
      (.actOnCondition ..)

/-! ## What an outcome leads to -/

/-- Every next state that an outcome answers satisfies `P`. -/
inductive NextIs (P : State → Prop) : Host.Outcome State Fault Refusal → Prop where
  | next {s : State} : P s → NextIs P (.next s)
  | refused (r : Refusal) : NextIs P (.refused r)
  | fault (f : Fault) : NextIs P (.fault f)

theorem NextIs.of_eq_next {P : State → Prop} {o : Host.Outcome State Fault Refusal} (h : NextIs P o) (ho : o = .next t) : P t := by
  subst ho
  cases h
  assumption

theorem NextIs.mono {o : Host.Outcome State Fault Refusal} {P Q : State → Prop} (h : NextIs P o) (k : ∀ t, P t → Q t) :
    NextIs Q o := by
  cases h with
  | next h => exact .next (k _ h)
  | refused r => exact .refused r
  | fault f => exact .fault f

theorem nextIs_ite {p : Prop} [Decidable p] {a b : Host.Outcome State Fault Refusal} {P : State → Prop} (ha : p → NextIs P a)
    (hb : ¬ p → NextIs P b) : NextIs P (if p then a else b) := by
  split
  · exact ha ‹_›
  · exact hb ‹_›

theorem nextIs_inPhase {phase : Phase} {k : Transaction → Host.Outcome State Fault Refusal} {P : State → Prop}
    (h : ∀ t, (s.lane l).transaction = some t → t.phase = phase → NextIs P (k t)) : NextIs P (inPhase l phase s k) := by
  unfold inPhase
  split
  · exact .refused _
  · exact nextIs_ite (h _ ‹_›) fun _ => .refused _

theorem nextIs_inCondition {c : Condition} {k : Host.Outcome State Fault Refusal} {P : State → Prop}
    (h : (s.lane l).condition = c → NextIs P k) : NextIs P (inCondition l c s k) :=
  nextIs_ite h fun _ => .refused _

theorem nextIs_inReleaseWait {k : Host.Outcome State Fault Refusal} {P : State → Prop}
    (h : (s.lane l).condition = .sleepPending → (s.lane l).transaction = none → NextIs P k) : NextIs P (inReleaseWait l s k) :=
  nextIs_inCondition fun hc => nextIs_ite (fun _ => .refused _) fun hb => h hc (by simpa [State.busy] using hb)

theorem nextIs_receiveCell {awaited : Transaction → Bool} {cell : Samples 9}
    {check : LaneId → Transaction → Byte → State → Host.Outcome State Fault Refusal} {P : State → Prop}
    (h : ∀ t levels, (s.lane l).transaction = some t → t.phase = .receive → awaited t = true → NextIs P (takeCell l t levels s check)) :
    NextIs P (receiveCell l awaited cell s check) :=
  nextIs_inPhase fun t ht hp => nextIs_ite
    (fun ha => h t _ ht hp (by simp only [Bool.and_eq_true] at ha; exact ha.1)) fun _ => .refused _

/-! ## The lane events -/

theorem LaneMoves.onLine (l : LaneId) (s : State) (f : LineState → LineState) : LaneMoves l s (s.onLine l f) := .onLane s _ rfl rfl

/-- A transaction that goes on, or ends, behind a change of the line. -/
theorem LaneMoves.endTransaction_onLine (l : LaneId) (o : TxOutcome) (cell bit : Nat) (s : State) (f : LineState → LineState) :
    LaneMoves l s (Machine.endTransaction l o cell bit (s.onLine l f)) := (LaneMoves.onLine l s f).trans (.endTransaction ..)

theorem LaneMoves.completeCall (l : LaneId) (t : Transaction) (s : State) : LaneMoves l s (completeCall l t s) := by
  refine .onLane s _ ?_ ?_ <;> cases t.kind <;> rfl

theorem laneMoves_takeTag (l : LaneId) (t : Transaction) (v : Byte) (s : State) : NextIs (LaneMoves l s) (takeTag l t v s) := by
  unfold takeTag
  split
  · exact .next (.endTransaction ..)
  · exact .next (.onLane s _ rfl rfl)

theorem laneMoves_takeHeader (l : LaneId) (t : Transaction) (v : Byte) (s : State) : NextIs (LaneMoves l s) (takeHeader l t v s) := by
  unfold takeHeader
  split
  · exact .next (.endTransaction ..)
  · split
    · exact .fault _
    · exact nextIs_ite (fun _ => .next (.onLane s _ rfl rfl)) fun _ => .next (.endTransaction ..)

theorem laneMoves_takeData (l : LaneId) (t : Transaction) (v : Byte) (s : State) : NextIs (LaneMoves l s) (takeData l t v s) :=
  .next (.onLane s _ rfl rfl)

theorem laneMoves_takeCheck (l : LaneId) (t : Transaction) (v : Byte) (s : State) : NextIs (LaneMoves l s) (takeCheck l t v s) :=
  nextIs_ite (fun _ => .next (.onLane s _ rfl rfl)) fun _ => .next (.endTransaction ..)

theorem laneMoves_takeAwaited (l : LaneId) (t : Transaction) (v : Byte) (s : State) : NextIs (LaneMoves l s) (takeAwaited l t v s) :=
  nextIs_ite (fun _ => laneMoves_takeTag ..) fun _ => nextIs_ite (fun _ => laneMoves_takeHeader ..) fun _ =>
    nextIs_ite (fun _ => laneMoves_takeData ..) fun _ => laneMoves_takeCheck ..

theorem laneMoves_takeCell {check : LaneId → Transaction → Byte → State → Host.Outcome State Fault Refusal}
    (h : ∀ t v s, NextIs (LaneMoves l s) (check l t v s)) (t : Transaction) (levels : BitVec 9) (s : State) :
    NextIs (LaneMoves l s) (takeCell l t levels s check) :=
  nextIs_ite (fun _ => .next (.endTransaction_onLine ..)) fun _ =>
    (h _ _ _).mono fun _ => (LaneMoves.onLine ..).trans

theorem laneMoves_receiveCell {check : LaneId → Transaction → Byte → State → Host.Outcome State Fault Refusal}
    (h : ∀ t v s, NextIs (LaneMoves l s) (check l t v s)) (awaited : Transaction → Bool) (cell : Samples 9) (s : State) :
    NextIs (LaneMoves l s) (receiveCell l awaited cell s check) :=
  nextIs_receiveCell fun _ _ _ _ _ => laneMoves_takeCell h ..

theorem laneMoves_raiseStuck (l : LaneId) (s : State) : NextIs (LaneMoves l s) (raiseStuck l s) := by
  have stuck := LaneMoves.onLine l s LineState.stuck
  unfold raiseStuck
  split
  · exact nextIs_ite (fun _ => .next (.endTransaction_onLine ..)) fun _ => .refused _
  · refine nextIs_ite (fun _ => .refused _) fun _ => ?_
    split
    · exact .next stuck
    · exact .refused _
    all_goals exact .next (stuck.trans (.enterFaulted ..))

theorem laneMoves_countDominant (l : LaneId) (s : State) : NextIs (LaneMoves l s) (countDominant l s) :=
  nextIs_ite (fun _ => laneMoves_raiseStuck l s) fun _ => .next (.onLane s _ rfl rfl)

theorem LaneMoves.countRecessive (l : LaneId) (s : State) : LaneMoves l s (countRecessive l s) := .onLane s _ rfl rfl

theorem LaneMoves.objectToSleep (l : LaneId) (s : State) : LaneMoves l s (objectToSleep l s) :=
  (LaneMoves.onLine ..).trans (.changeCondition ..)

theorem LaneMoves.endResponderRun (l : LaneId) (run : Nat) (s : State) : LaneMoves l s (endResponderRun l run s) :=
  .ite ((LaneMoves.onLine ..).trans (.changeCondition ..)) (.onLine ..)

theorem laneMoves_readBack (l : LaneId) (t : Transaction) (dominant : Bool) (s : State) :
    NextIs (LaneMoves l s) (readBack l t dominant s) := by
  unfold readBack
  simp only
  split
  · exact .refused _
  · refine nextIs_ite (fun _ => .next (.endTransaction_onLine ..)) fun _ => ?_
    split
    · exact .next (.onLine ..)
    · exact .next (.ite (.endTransaction_onLine ..) (.completeCall ..))

theorem LaneMoves.endWindow (l : LaneId) (t : Transaction) (seen : Bool) (s : State) : LaneMoves l s (endWindow l t seen s) :=
  (LaneMoves.onLane s _ rfl rfl).trans (.endTransaction ..)

theorem laneMoves_takeBit (l : LaneId) (t : Transaction) (bits : List Bool) (dominant : Bool) (s : State) :
    NextIs (LaneMoves l s) (takeBit l t bits dominant s) :=
  nextIs_ite (fun _ => laneMoves_takeCell (laneMoves_takeAwaited l) ..) fun _ => .next (.onLine ..)

theorem laneMoves_betweenTransactions (l : LaneId) (dominant : Bool) (s : State) :
    NextIs (LaneMoves l s) (betweenTransactions l dominant s) := by
  have counts : NextIs (LaneMoves l s) (if dominant then countDominant l s else .next (countRecessive l s)) :=
    nextIs_ite (fun _ => laneMoves_countDominant ..) fun _ => .next (.countRecessive ..)
  refine nextIs_ite (fun _ => .next (.onLine ..)) fun _ => ?_
  split
  · exact .next (.ite (.objectToSleep ..) ((LaneMoves.countRecessive ..).trans (.onLine ..)))
  · exact nextIs_ite (fun _ => laneMoves_countDominant ..) fun _ =>
      nextIs_ite (fun _ => .next (.endResponderRun ..)) fun _ => .next (.countRecessive ..)
  all_goals exact counts

theorem laneMoves_inTransaction (l : LaneId) (t : Transaction) (dominant : Bool) (s : State) :
    NextIs (LaneMoves l s) (inTransaction l t dominant s) := by
  have awaits : LaneMoves l s (if dominant then startCell l t s else (countRecessive l s).onLine l LineState.waitOn) :=
    .ite (.onLane s _ rfl rfl) ((LaneMoves.countRecessive ..).trans (.onLine ..))
  unfold inTransaction
  simp only
  split
  · exact nextIs_ite (fun _ => laneMoves_countDominant ..) fun _ => .next (.countRecessive ..)
  · exact laneMoves_readBack ..
  · exact laneMoves_readBack ..
  · exact .next awaits
  · split
    · exact .next awaits
    · exact laneMoves_takeBit ..
  · exact .next (.endWindow ..)

/-- Whatever an event of a lane does is a chain of moves of its engine. -/
theorem laneMoves_of_exec {c : Instr} (hl : c.lane = some l) : NextIs (LaneMoves l s) (exec c s) := by
  cases c <;> cases hl
  case gapWaitComplete => exact nextIs_inPhase fun _ _ _ => .next (.onLane s _ rfl rfl)
  case callComplete => exact nextIs_inPhase fun _ _ _ => .next (.completeCall ..)
  case responseTimeout =>
    exact nextIs_inPhase fun _ _ _ => .next ((LaneMoves.onLane s _ rfl rfl).trans (.endTransaction ..))
  case tagCellReceived cell => exact laneMoves_receiveCell (laneMoves_takeTag l) ..
  case headerCellReceived cell => exact laneMoves_receiveCell (laneMoves_takeHeader l) ..
  case dataCellReceived cell => exact laneMoves_receiveCell (laneMoves_takeData l) ..
  case checkCellReceived cell => exact laneMoves_receiveCell (laneMoves_takeCheck l) ..
  case gapTimeout =>
    exact nextIs_inPhase fun _ _ _ => nextIs_ite (fun _ => .refused _) fun _ =>
      .next ((LaneMoves.onLane s _ rfl rfl).trans (.endTransaction ..))
  case pendingWindowEnd window => exact nextIs_inPhase fun _ _ _ => .next (.endWindow ..)
  case publishComplete => exact nextIs_inPhase fun _ _ _ => .next (.endTransaction_onLine ..)
  case readbackError ahead read =>
    show NextIs _ (execReadbackError l ahead read s)
    unfold execReadbackError
    split
    · exact .refused _
    · simp only
      split
      · exact .refused _
      · exact nextIs_ite (fun _ => .next (.endTransaction_onLine ..)) fun _ => .refused _
  case stuckFault => exact laneMoves_raiseStuck l s
  case pauseComplete =>
    refine nextIs_inCondition fun _ => ?_
    split
    · exact .refused _
    · exact .next ((LaneMoves.onLane s _ rfl rfl).trans (.choose ..))
  case sleepReleaseComplete =>
    exact nextIs_inReleaseWait fun _ _ => .next
      (((LaneMoves.onLane s _ rfl rfl).trans (.changeCondition ..)).trans (.completeQueued ..))
  case sleepReleaseWake => exact nextIs_inReleaseWait fun _ _ => .next (.objectToSleep ..)
  case responderWake run =>
    exact nextIs_inCondition fun _ => nextIs_ite (fun _ => .refused _) fun _ => .next (.endResponderRun ..)
  case wakePulseEnd =>
    exact nextIs_inCondition fun _ => nextIs_ite (fun _ => .next (.onLine ..)) fun _ => .refused _
  case wakeSettleComplete =>
    exact nextIs_inCondition fun _ => nextIs_ite (fun _ => .refused _) fun _ =>
      .next ((LaneMoves.onLane s _ rfl rfl).trans (.enterResume ..))
  case recoveryQuietComplete =>
    exact nextIs_inCondition fun _ => nextIs_ite (fun _ => .next ((LaneMoves.onLine ..).trans (.leaveFaulted ..)))
      fun _ => .next (.onLine ..)
  case responseStartBit start =>
    show NextIs _ (execResponseStartBit l start s)
    unfold execResponseStartBit
    split
    · exact .refused _
    · exact nextIs_ite (fun _ => nextIs_ite (fun _ => .next (.onLane s _ rfl rfl)) fun _ =>
        .next (.refl s)) fun _ => .refused _
  case dominantBitTime bit =>
    show NextIs _ (execDominantBitTime l bit s)
    unfold execDominantBitTime
    simp only
    split
    · exact laneMoves_inTransaction ..
    · exact laneMoves_betweenTransactions ..

/-- Settles O53: an event of a lane is a chain of moves of its engine, each of which stays on the lane. -/
theorem laneEventsStayOnTheirLane : Obligations.LaneEventsStayOnTheirLane := by
  intro s t c l hl h
  have moves : LaneMoves l s t := (laneMoves_of_exec hl).of_eq_next h
  exact ⟨moves.onlyLane, fun r => moves.slot_of_not_routeFed⟩

end Sys2Proof.Machine
end

section
/-!
What a lane engine holds within a transaction, at rest and at an ending, and how the operations of the engine keep it: the layer between
`LaneWf` and the lane events (R26, R46, R55, R78, R92, R101, R115).
-/

namespace Sys2Proof.Machine

open Sys2Proof

/-! ## The bounds of the line state -/

/-- The bounds of the runs and of the wait counted (R26, log entry 30). -/
structure RunsWf (x : LineState) : Prop where
  dominantRun : x.dominantRun ≤ 30
  recessiveRun : x.recessiveRun ≤ 255
  waited : x.waited ≤ 255

theorem bump_le (limit n : Nat) : bump limit n ≤ limit := Nat.min_le_right ..

theorem RunsWf.startDriving (x : LineState) : RunsWf x.startDriving := ⟨Nat.zero_le _, Nat.zero_le _, Nat.zero_le _⟩
theorem RunsWf.release (x : LineState) : RunsWf x.release := ⟨Nat.zero_le _, Nat.zero_le _, Nat.zero_le _⟩

theorem RunsWf.recessiveFor {x : LineState} (h : RunsWf x) (n : Nat) : RunsWf (x.recessiveFor n) :=
  ⟨Nat.zero_le _, Nat.min_le_right .., h.waited⟩
theorem RunsWf.reach {x : LineState} (h : RunsWf x) (n : Nat) : RunsWf (x.reach n) :=
  ⟨Nat.zero_le _, Nat.min_le_right .., h.waited⟩
theorem RunsWf.dominantBit {x : LineState} (h : RunsWf x) : RunsWf x.dominantBit := ⟨bump_le .., Nat.zero_le _, h.waited⟩
theorem RunsWf.firstDominant {x : LineState} (h : RunsWf x) : RunsWf x.firstDominant := ⟨(by decide : 1 ≤ 30), Nat.zero_le _, h.waited⟩
theorem RunsWf.stuck {x : LineState} (h : RunsWf x) : RunsWf x.stuck := ⟨Nat.le_refl _, Nat.zero_le _, h.waited⟩
theorem RunsWf.waitOn {x : LineState} (h : RunsWf x) : RunsWf x.waitOn := ⟨h.dominantRun, h.recessiveRun, bump_le ..⟩

theorem RunsWf.send {x : LineState} (h : RunsWf x) (i : Nat) (place : Nat × Nat) (recessive : Bool) :
    RunsWf (x.send i place recessive) := by
  cases recessive
  · exact ⟨Nat.zero_le _, Nat.zero_le _, Nat.zero_le _⟩
  · exact ⟨h.dominantRun, h.recessiveRun, h.waited⟩

theorem cellEndRun_le (levels : BitVec 9) : cellEndRun levels ≤ 10 :=
  ((cellBits levels).reverse.takeWhile_sublist _).length_le.trans (by simp [cellBits])

theorem RunsWf.afterCell (x : LineState) (levels : BitVec 9) : RunsWf (x.afterCell levels) := by
  have hr := cellEndRun_le levels
  unfold LineState.afterCell
  split
  · exact ⟨by simp only; omega, Nat.zero_le _, Nat.zero_le _⟩
  · exact ⟨Nat.zero_le _, by simp only; omega, Nat.zero_le _⟩

/-- Fewer recessive bits than a cell has end what has been sent, since a cell begins with a dominant one (R41). -/
theorem recessiveTail_append_cell (before : List Bool) (v : Byte) : recessiveTail (before ++ cellLevels v) ≤ 9 := by
  have hr : (before ++ cellLevels v).reverse = ((List.range 9).map (1#1 ++ v).getLsbD).reverse ++ false :: before.reverse := by
    simp [cellLevels, cellBits]
  have hlen : ((List.range 9).map (1#1 ++ v).getLsbD).reverse.length = 9 := by simp
  rw [recessiveTail, hr, List.takeWhile_append]
  split
  · simp
  · exact ((List.takeWhile_sublist _).length_le).trans hlen.le

theorem recessiveTail_cells (cells : List Byte) : recessiveTail (cells.flatMap cellLevels) ≤ 9 := by
  rcases cells.eq_nil_or_concat' with rfl | ⟨before, v, rfl⟩
  · decide
  · rw [List.flatMap_append, List.flatMap_singleton]
    exact recessiveTail_append_cell ..

theorem recessiveTail_levelsSent (t : Transaction) : recessiveTail t.levelsSent ≤ 9 := by
  unfold Transaction.levelsSent
  split
  · exact recessiveTail_append_cell ..
  · exact recessiveTail_cells ..
  all_goals decide

theorem RunsWf.sentWhole (x : LineState) (t : Transaction) : RunsWf (x.sentWhole t.levelsSent) :=
  ⟨Nat.zero_le _, (recessiveTail_levelsSent t).trans (by decide), Nat.zero_le _⟩

/-! ## Within a transaction -/

/-- What the line state holds within a transaction (R26, R41, R42). -/
structure CallWf (t : Transaction) (x : LineState) : Prop where
  sending : x.driving = true ↔ t.levelsSent[x.sent]? = some false
  sent : t.phase = .call ∨ t.phase = .send → x.sent < t.levelsSent.length ∧ x.position = some (t.placeSent x.sent)
  receiving : ∀ bits, x.cell = some bits → bits.length ≤ 8 ∧ t.phase = .receive ∧ x.position = some (t.cellIndex, bits.length)
  firstCell : t.phase = .receive → t.tag = none → t.header = none → x.cell.isSome
  position : x.position.isSome
  runs : RunsWf x

theorem LaneWf.runs {L : Lane} (h : LaneWf L) : RunsWf L.line := ⟨h.dominantRun, h.recessiveRun, h.waited⟩

theorem LaneWf.call {L : Lane} {t : Transaction} (h : LaneWf L) (ht : L.transaction = some t) : CallWf t L.line where
  sending := h.sending t ht
  sent := h.sent t ht
  receiving bits hb := by
    obtain ⟨hlen, t', ht', hp, hpos⟩ := h.receiving bits hb
    obtain rfl : t = t' := Option.some.inj (ht.symm.trans ht')
    exact ⟨hlen, hp, hpos⟩
  firstCell := h.firstCell t ht
  position := by rw [h.position, ht]; rfl
  runs := h.runs

theorem CallWf.cell_eq_none {t : Transaction} {x : LineState} (h : CallWf t x) (hp : t.phase ≠ .receive) : x.cell = none := by
  cases hc : x.cell with
  | none => rfl
  | some bits => exact absurd (h.receiving bits hc).2.1 hp

theorem levelsSent_eq_nil {t : Transaction} (hc : t.phase ≠ .call) (hs : t.phase ≠ .send) : t.levelsSent = [] := by
  unfold Transaction.levelsSent
  split
  · exact absurd ‹_› hc
  · exact absurd ‹_› hs
  all_goals rfl

/-- Outside CALL and SEND the line is released (R27). -/
theorem CallWf.released {t : Transaction} {x : LineState} (h : CallWf t x) (hc : t.phase ≠ .call) (hs : t.phase ≠ .send) :
    x.driving = false := by
  have := h.sending
  rw [levelsSent_eq_nil hc hs] at this
  simpa using this

/-- The line state of a transaction that sends nothing and receives no cell just now. -/
theorem CallWf.of_listening {t : Transaction} {x : LineState} (hc : t.phase ≠ .call) (hs : t.phase ≠ .send)
    (hd : x.driving = false) (hcell : x.cell = none) (hf : t.phase = .receive → t.tag.isSome ∨ t.header.isSome)
    (hp : x.position.isSome) (hr : RunsWf x) : CallWf t x where
  sending := by simp [levelsSent_eq_nil hc hs, hd]
  sent h := (h.elim hc hs).elim
  receiving bits h := by simp [hcell] at h
  firstCell hr ht hh := by simpa [ht, hh] using hf hr
  position := hp
  runs := hr

/-- The line state of a transaction as it begins to send, with a dominant bit. -/
theorem CallWf.of_sending {t : Transaction} {x : LineState} {i : Nat} {level : Bool} (hp : t.phase = .call ∨ t.phase = .send)
    (hl : t.levelsSent[i]? = some level) (hc : x.cell = none) (hr : RunsWf x) : CallWf t (x.send i (t.placeSent i) level) where
  sending := by cases level <;> simp [hl]
  sent _ := by
    obtain ⟨hi, _⟩ := List.getElem?_eq_some_iff.mp hl
    simpa using hi
  receiving bits h := by simp [hc] at h
  firstCell h := by rcases hp with hp | hp <;> simp [hp] at h
  position := by simp
  runs := hr.send ..

/-- The transaction in progress goes on, from the same source. -/
theorem LaneWf.goOn {L : Lane} {t t' : Transaction} {x : LineState} (h : LaneWf L) (ht : L.transaction = some t)
    (hw : TransactionWf t') (hx : CallWf t' x) (hs : t'.source = t.source) (hf : t'.followUpsForbidden = t.followUpsForbidden) :
    LaneWf { L with transaction := some t', line := x } where
  idle hc := by simp [h.idle hc] at ht
  halting _ := rfl
  queueEmpty := h.queueEmpty
  queue := h.queue
  transaction := by rintro _ ⟨⟩; exact hw
  sleepCall := by rintro _ ⟨⟩ hsrc; exact h.sleepCall t ht (hs ▸ hsrc)
  forbidden hc := by rintro _ ⟨⟩; rw [hs, hf]; exact h.forbidden hc t ht
  sending := by rintro _ ⟨⟩; exact hx.sending
  sent := by rintro _ ⟨⟩; exact hx.sent
  receiving bits hb := by
    obtain ⟨hlen, hp, hpos⟩ := hx.receiving bits hb
    exact ⟨hlen, t', rfl, hp, hpos⟩
  firstCell := by rintro _ ⟨⟩; exact hx.firstCell
  pulse := nofun
  position := hx.position
  armed := h.armed
  config := h.config
  dominantRun := hx.runs.dominantRun
  recessiveRun := hx.runs.recessiveRun
  waited := hx.runs.waited
  counts := h.counts
  readbackRun := h.readbackRun
  capture := h.capture
  faultsSince := h.faultsSince
  pause n hn := by simp [(h.pause n hn).2.2.1] at ht
  roundPosition := h.roundPosition
  streak := h.streak

/-- The runs and the wait may change within their bounds, in every condition and phase. -/
theorem LaneWf.withRuns {L : Lane} {x : LineState} (h : LaneWf L) (hr : RunsWf x) (hd : x.driving = L.line.driving)
    (hs : x.sent = L.line.sent) (hp : x.position = L.line.position) (hc : x.cell = L.line.cell) : LaneWf { L with line := x } :=
  { h with
    sending := fun t ht => by simp only [hd, hs]; exact h.sending t ht
    sent := fun t ht hph => by simp only [hs, hp]; exact h.sent t ht hph
    receiving := fun bits hb => by simp only [hp]; exact h.receiving bits (hc ▸ hb)
    firstCell := fun t ht hph htag hh => by simp only [hc]; exact h.firstCell t ht hph htag hh
    pulse := fun ht hdr => h.pulse ht (hd ▸ hdr)
    position := by simp only [hp]; exact h.position
    dominantRun := hr.dominantRun, recessiveRun := hr.recessiveRun, waited := hr.waited }

/-- A pause may count on, or begin again, within its bound. -/
theorem LaneWf.mapPause {L : Lane} (h : LaneWf L) {f : Nat → Nat} (hf : ∀ n, f n ≤ 16) :
    LaneWf { L with round := { L.round with pause := L.round.pause.map f } } :=
  { h with
    pause := fun n hn => by
      obtain ⟨m, hm, rfl⟩ := Option.map_eq_some_iff.mp hn
      exact ⟨hf m, (h.pause m hm).2⟩ }

/-! ## At rest -/

/-- The bounds of a lane engine that neither its condition nor its line decides. -/
structure AccountsWf (L : Lane) : Prop where
  queue : L.oneShots.length ≤ 8
  config : ConfigWf L.config
  counts : L.counts.good ≤ 65535 ∧ L.counts.silent ≤ 65535 ∧ L.counts.faulty ≤ 65535
  capture : ∀ c, L.capture = some c → c.outcome.faulty = true
  faultsSince : L.faultsSince ≤ 255 ∧ (L.capture = none → L.faultsSince = 0)
  roundPosition : L.round.position ≤ L.schedules.active.length
  streak : L.round.streak ≤ 2

/-- A lane engine between transactions, with the line released. -/
structure RestWf (L : Lane) : Prop where
  transaction : L.transaction = none
  driving : L.line.driving = false
  cell : L.line.cell = none
  position : L.line.position = none
  runs : RunsWf L.line
  accounts : AccountsWf L

theorem LaneWf.accounts {L : Lane} (h : LaneWf L) : AccountsWf L :=
  ⟨h.queue, h.config, h.counts, h.capture, h.faultsSince, h.roundPosition, h.streak⟩

theorem LaneWf.released {L : Lane} (h : LaneWf L) (ht : L.transaction = none) (hc : L.condition ≠ .waking) :
    L.line.driving = false := by
  cases hd : L.line.driving with
  | false => rfl
  | true => exact absurd (h.pulse ht hd) hc

theorem LaneWf.cell_eq_none {L : Lane} (h : LaneWf L) (ht : L.transaction = none) : L.line.cell = none := by
  cases hc : L.line.cell with
  | none => rfl
  | some bits =>
    obtain ⟨-, t, ht', -⟩ := h.receiving bits hc
    simp [ht] at ht'

theorem LaneWf.position_eq_none {L : Lane} (h : LaneWf L) (ht : L.transaction = none) : L.line.position = none := by
  simpa [ht] using h.position

theorem LaneWf.rest {L : Lane} (h : LaneWf L) (ht : L.transaction = none) (hd : L.line.driving = false) : RestWf L :=
  ⟨ht, hd, h.cell_eq_none ht, h.position_eq_none ht, h.runs, h.accounts⟩

/-- What a lane engine at rest must hold besides, by its condition. -/
theorem RestWf.laneWf {L : Lane} (h : RestWf L) (hh : L.condition ≠ .halting)
    (hq : L.condition = .sleeping ∨ L.condition = .faulted → L.oneShots = []) (ha : L.recoveryArmed = true → L.condition = .faulted)
    (hr : L.readbackRun ≤ 2)
    (hp : ∀ n, L.round.pause = some n → n ≤ 16 ∧ L.condition = .running ∧ L.schedules.active ≠ []) : LaneWf L where
  idle _ := h.transaction
  halting hc := absurd hc hh
  queueEmpty := hq
  queue := h.accounts.queue
  transaction t ht := by simp [h.transaction] at ht
  sleepCall t ht := by simp [h.transaction] at ht
  forbidden _ t ht := by simp [h.transaction] at ht
  sending t ht := by simp [h.transaction] at ht
  sent t ht := by simp [h.transaction] at ht
  receiving bits hb := by simp [h.cell] at hb
  firstCell t ht := by simp [h.transaction] at ht
  pulse _ hd := by simp [h.driving] at hd
  position := by simp [h.transaction, h.position]
  armed := ha
  config := h.accounts.config
  dominantRun := h.runs.dominantRun
  recessiveRun := h.runs.recessiveRun
  waited := h.runs.waited
  counts := h.accounts.counts
  readbackRun := hr
  capture := h.accounts.capture
  faultsSince := h.accounts.faultsSince
  pause n hn := ⟨(hp n hn).1, (hp n hn).2.1, h.transaction, (hp n hn).2.2⟩
  roundPosition := h.accounts.roundPosition
  streak := h.accounts.streak

/-! ## Beginning a transaction -/

/-- A lane engine with a transaction that has just begun (R42, R47). -/
def Lane.begun (L : Lane) (t : Transaction) : Lane :=
  { L with transaction := some t, line := { L.line with position := some (0, 0) } }

@[simp] theorem State.lane_begin (s : State) (l : LaneId) (t : Transaction) : (s.begin l t).lane l = (s.lane l).begun t :=
  s.lane_onLane_self ..

/-- A transaction may begin on a RUNNING or SLEEP_PENDING lane that is at rest and takes no pause. -/
theorem LaneWf.begun {L : Lane} {t : Transaction} (h : LaneWf L) (ht : L.transaction = none)
    (hc : L.condition = .running ∨ L.condition = .sleepPending) (hp : L.round.pause = none) (hw : TransactionWf t)
    (hg : t.phase = .gap) (hs : t.source = .sleepCall ↔ L.condition = .sleepPending) : LaneWf (L.begun t) := by
  have hx : CallWf t { L.line with position := some (0, 0) } :=
    .of_listening (by simp [hg]) (by simp [hg]) (h.released ht (by rcases hc with hc | hc <;> simp [hc])) (h.cell_eq_none ht)
      (by simp [hg]) rfl ⟨h.dominantRun, h.recessiveRun, h.waited⟩
  exact
    { h with
      idle := fun hi => by rcases hc with hc | hc <;> simp [hc, Lane.begun] at hi
      halting := fun _ => rfl
      transaction := by rintro _ ⟨⟩; exact hw
      sleepCall := by rintro _ ⟨⟩ hsrc; exact hs.mp hsrc
      forbidden := by
        rintro hh _ ⟨⟩
        refine .inl (hs.mpr ?_)
        rcases hc with hc | hc
        · simp [hc, Lane.begun] at hh
        · exact hc
      sending := by rintro _ ⟨⟩; exact hx.sending
      sent := by rintro _ ⟨⟩; exact hx.sent
      receiving := fun bits hb => by
        obtain ⟨hlen, hph, hpos⟩ := hx.receiving bits hb
        exact ⟨hlen, t, rfl, hph, hpos⟩
      firstCell := by rintro _ ⟨⟩; exact hx.firstCell
      pulse := nofun
      position := rfl
      pause := fun n hn => by simp [Lane.begun, hp] at hn }

/-- What a transaction that begins holds, by its source and kind (R46, R47). -/
theorem TransactionWf.begin {t : Transaction} (hp : t.phase = .gap) (hr : t.pendingResult = .notSampled) (htag : t.tag = none)
    (hh : t.header = none) (hd : t.data = []) (ho : t.source = .oneShot ↔ t.oneShot.isSome)
    (hf : t.source = .followUp → t.kind = .contended) (hs : t.source = .sleepCall → t.kind = .published)
    (ha : t.allowance.isSome ↔ t.kind = .contended ∧ (t.source = .scheduled ∨ t.source = .followUp)) : TransactionWf t where
  oneShot := ho
  followUp := hf
  sleepCall := hs
  allowance := ha
  answered h := by simp [hp] at h
  sends h := by simp [hp] at h
  window h := by simp [hp] at h
  notSampled := hr
  tag h := by simp [htag] at h
  header _ h := by simp [hh] at h
  noHeader _ := hd

theorem LaneWf.begun_sleepCall {L : Lane} (h : LaneWf L) (ht : L.transaction = none) (hc : L.condition = .sleepPending) (data) :
    LaneWf (L.begun { Transaction.begin .sleepCall 0 .published with sendData := data }) := by
  have hp : L.round.pause = none := by
    cases hp : L.round.pause with
    | none => rfl
    | some n => simpa [hc] using (h.pause n hp).2.1
  exact h.begun ht (.inr hc) hp (.begin rfl rfl rfl rfl rfl (by simp [Transaction.begin]) nofun (fun _ => rfl)
    (by simp [Transaction.begin])) rfl (by simp [hc, Transaction.begin])

/-! ## The choice -/

/-- A lane engine whose round has passed over an entry (R79). -/
def Lane.advanced (L : Lane) : Lane := { L with round := { L.round with position := L.round.position + 1 } }

/-- A lane engine at the beginning of a SCHEDULED transaction (R88). -/
def Lane.scheduled (L : Lane) (t : Transaction) : Lane := Lane.begun { L with round := { L.round with streak := 0 } } t

/-- A lane engine at the beginning of a one-shot (R81, R88, R96). -/
def Lane.oneShotBegun (L : Lane) (rest : List OneShot) (t : Transaction) : Lane :=
  Lane.begun { L with oneShots := rest, round := { L.round with pause := none, streak := bump 2 L.round.streak } } t

/-- A lane engine whose round has ended (R80). -/
def Lane.roundEnded (L : Lane) : Lane :=
  { L with
    schedules := L.swapped
    round :=
      { L.round with
        counter := L.round.counter + 1, position := 0, worked := false
        pause := if L.round.worked || L.swapped.active.isEmpty then none else some 0 } }

@[simp] theorem State.lane_setLane_reports (s : State) (l : LaneId) (M : Lane) (q : ReportQueue) :
    State.lane { s.setLane l M with reports := q } l = M := s.lane_setLane_self l M

theorem State.lane_endRound (s : State) (l : LaneId) : (endRound l s).lane l = (s.lane l).roundEnded := by
  rw [endRound_eq rfl, lane_setLane_reports]; rfl

/-- `P` holds of a lane engine as long as its choice goes on, and `Q` of it once the choice is made (R87). -/
structure ChoiceRule (P Q : Lane → Prop) : Prop where
  rest : ∀ {L}, P L → Q L
  advanced : ∀ {L}, P L → L.round.position < L.schedules.active.length → P L.advanced
  scheduled : ∀ {L} slot kind allowance, P L → L.round.pause = none → (allowance.isSome = true ↔ kind = .contended) →
    Q (L.scheduled { Transaction.begin .scheduled slot kind with allowance })
  oneShot : ∀ {L} o rest kind, P L → L.oneShots = o :: rest →
    Q (L.oneShotBegun rest { Transaction.begin .oneShot o.slot kind with oneShot := some (o.handle, o.kind), sendData := o.data })
  roundEnded : ∀ {L}, P L → P L.roundEnded

section
variable {P Q : Lane → Prop} {l : LaneId}

theorem ChoiceRule.beginOneShot (h : ChoiceRule P Q) {s : State} (hs : P (s.lane l)) : Q ((Machine.beginOneShot l s).lane l) := by
  unfold Machine.beginOneShot
  split
  · exact h.rest hs
  · rename_i o rest heq
    simp only [State.lane_begin, State.lane_onLane_self]
    exact h.oneShot o rest _ hs heq

/-- Either no entry has begun, and the choice goes on, or one has, and the lane is busy. -/
theorem ChoiceRule.considerEntries (h : ChoiceRule P Q) (es : List Entry) {s : State} (hs : P (s.lane l))
    (hp : (s.lane l).round.pause = none) (hlen : es.length ≤ (s.lane l).schedules.active.length - (s.lane l).round.position) :
    P ((Machine.considerEntries l es s).lane l)
      ∨ Q ((Machine.considerEntries l es s).lane l) ∧ (Machine.considerEntries l es s).busy l = true := by
  induction es generalizing s with
  | nil => exact .inl hs
  | cons e rest ih =>
    simp only [List.length_cons] at hlen
    rw [considerEntries_cons (L := s.lane l) rfl]
    have begins : ∀ (u : State) k a, u.lane l = (s.lane l).advanced → (a.isSome = true ↔ k = .contended) →
        Q ((beginScheduled l e.slot k a u).lane l) ∧ (beginScheduled l e.slot k a u).busy l = true := by
      intro u k a hu ha
      have hl : (beginScheduled l e.slot k a u).lane l
          = (u.lane l).scheduled { Transaction.begin .scheduled e.slot k with allowance := a } := by
        simp only [beginScheduled, State.lane_begin, State.lane_onLane_self]; rfl
      refine ⟨?_, by rw [State.busy, hl]; rfl⟩
      rw [hl, hu]
      exact h.scheduled _ _ _ (h.advanced hs (by omega)) hp ha
    have passes : ∀ u : State, u.lane l = (s.lane l).advanced → P ((Machine.considerEntries l rest u).lane l)
        ∨ Q ((Machine.considerEntries l rest u).lane l) ∧ (Machine.considerEntries l rest u).busy l = true := by
      intro u hu
      refine ih ?_ ?_ ?_ <;> rw [hu]
      · exact h.advanced hs (by omega)
      · exact hp
      · simp only [Lane.advanced]; omega
    have moved : (s.setLane l (s.lane l).advanced).lane l = (s.lane l).advanced := s.lane_setLane_self l _
    simp only
    split
    · split
      · exact passes _ moved
      · split
        · exact passes _ moved
        · exact .inr (begins _ _ _ moved (by simp))
      · exact .inr (begins _ _ _ moved (by simp))
      · split
        · exact passes _ moved
        · exact .inr (begins _ _ _ moved (by simp))
    · exact passes _ moved

theorem ChoiceRule.chooseIn (h : ChoiceRule P Q) (n : Nat) {s : State} (hs : P (s.lane l)) : Q ((Machine.chooseIn n l s).lane l) := by
  induction n generalizing s with
  | zero => exact h.rest hs
  | succ n ih =>
    rw [chooseIn_succ rfl]
    have considered : ∀ u : State, P (u.lane l) ∨ Q (u.lane l) ∧ u.busy l = true →
        Q ((chooseFrom n l (s.lane l) u).lane l) := by
      intro u hu
      unfold chooseFrom
      split
      · exact hu.elim h.rest And.left
      · rename_i hb
        have hu : P (u.lane l) := hu.resolve_right fun hq => hb hq.2
        split
        · exact h.beginOneShot hu
        · split
          · exact ih (by rw [State.lane_endRound]; exact h.roundEnded hu)
          · exact h.rest hu
    split
    · exact h.beginOneShot hs
    · refine considered _ ?_
      split
      · rename_i hp
        exact h.considerEntries _ hs (Option.isNone_iff_eq_none.mp hp) (by rw [List.length_drop])
      · exact .inl hs

theorem ChoiceRule.choose (h : ChoiceRule P Q) {s : State} (hs : P (s.lane l)) : Q ((Machine.choose l s).lane l) :=
  h.chooseIn 3 hs

end

/-- A RUNNING lane engine between transactions, from which it chooses. -/
structure ChoosingWf (L : Lane) : Prop where
  wf : LaneWf L
  transaction : L.transaction = none
  condition : L.condition = .running

theorem choosing_rule : ChoiceRule ChoosingWf LaneWf where
  rest h := h.wf
  advanced h hlt := ⟨{ h.wf with roundPosition := hlt }, h.transaction, h.condition⟩
  scheduled {L} slot kind allowance h hp ha := by
    have hw : LaneWf { L with round := { L.round with streak := 0 } } := { h.wf with streak := Nat.zero_le 2 }
    exact hw.begun h.transaction (.inl h.condition) hp
      (.begin rfl rfl rfl rfl rfl (by simp [Transaction.begin]) nofun nofun (by simpa [Transaction.begin] using ha)) rfl
      (by simp [Transaction.begin, h.condition])
  oneShot {L} o rest kind h ho := by
    have hw : LaneWf { L with oneShots := rest, round := { L.round with pause := none, streak := bump 2 L.round.streak } } :=
      { h.wf with
        queueEmpty := fun hc => by simp [h.condition] at hc
        queue := by have := h.wf.queue; simp only [ho, List.length_cons] at this; exact (Nat.le_succ _).trans this
        pause := nofun
        streak := bump_le .. }
    exact hw.begun h.transaction (.inl h.condition) rfl
      (.begin rfl rfl rfl rfl rfl (by simp [Transaction.begin]) nofun nofun (by simp [Transaction.begin])) rfl
      (by simp [Transaction.begin, h.condition])
  roundEnded {L} h := by
    refine ⟨{ h.wf with
      pause := fun n hn => ?_
      roundPosition := Nat.zero_le _ }, h.transaction, h.condition⟩
    simp only [Lane.roundEnded] at hn
    split at hn
    · simp at hn
    · rename_i hne
      obtain rfl : 0 = n := by simpa using hn
      exact ⟨Nat.zero_le _, h.condition, h.transaction, fun he => hne (by simp [Lane.roundEnded] at he; simp [he])⟩

theorem ChoosingWf.choose {s : State} {l : LaneId} (h : ChoosingWf (s.lane l)) : LaneWf ((Machine.choose l s).lane l) :=
  choosing_rule.choose h

/-! ## Changes of condition -/

/-- A lane engine whose staged schedule has been swapped in, if one is present (R85). -/
def Lane.afterSwap (L : Lane) : Lane :=
  { L with
    schedules := L.swapped
    round := { L.round with position := if L.schedules.staged.isSome then 0 else L.round.position } }

theorem State.lane_swapStaged (s : State) (l : LaneId) : (swapStaged l s).lane l = (s.lane l).afterSwap := by
  rw [swapStaged_eq rfl, lane_setLane_reports]; rfl

theorem Lane.afterSwap_position_le {L : Lane} (h : L.round.position ≤ L.schedules.active.length) :
    L.afterSwap.round.position ≤ L.swapped.active.length := by
  unfold afterSwap swapped
  split <;> simp_all

theorem AccountsWf.afterSwap {L : Lane} (h : AccountsWf L) : AccountsWf L.afterSwap :=
  { h with roundPosition := Lane.afterSwap_position_le h.roundPosition }

theorem LaneWf.afterSwap {L : Lane} (h : LaneWf L) (hp : L.round.pause = none) : LaneWf L.afterSwap :=
  { h with
    pause := fun n hn => by simp [Lane.afterSwap, hp] at hn
    roundPosition := Lane.afterSwap_position_le h.roundPosition }

/-- Entry into HALTED from rest with no pause (R83). -/
theorem RestWf.enterHalted {s : State} {l : LaneId} {cause : Cause} (h : RestWf (s.lane l)) (hp : (s.lane l).round.pause = none)
    (ha : (s.lane l).recoveryArmed = false) (hr : (s.lane l).readbackRun ≤ 2) :
    LaneWf ((Machine.enterHalted l cause s).lane l) := by
  rw [enterHalted_eq rfl, State.lane_setLane_reports]
  have hrest : RestWf { (s.lane l).afterSwap with condition := .halted } := { h with accounts := { h.accounts.afterSwap with } }
  exact hrest.laneWf (by simp) (by simp) (by simp [Lane.afterSwap, ha]) hr (by simp [Lane.afterSwap, hp])

/-- Entry into RUNNING from rest (R83). -/
theorem RestWf.enterRunning {s : State} {l : LaneId} {cause : Cause} (h : RestWf (s.lane l))
    (ha : (s.lane l).recoveryArmed = false) (hr : (s.lane l).readbackRun ≤ 2) :
    LaneWf ((Machine.enterRunning l cause s).lane l) := by
  rw [enterRunning_eq rfl]
  refine ChoosingWf.choose ?_
  rw [State.lane_setLane_reports]
  have hrest : RestWf { s.lane l with condition := .running, schedules := (s.lane l).swapped, round := (s.lane l).round.abandoned } :=
    { h with accounts := { h.accounts with roundPosition := Nat.zero_le _, streak := Nat.zero_le _ } }
  exact ⟨hrest.laneWf (by simp) (by simp) (by simp [ha]) hr (by simp [RoundState.abandoned]), h.transaction, rfl⟩

theorem RestWf.enterResume {s : State} {l : LaneId} {cause : Cause} (h : RestWf (s.lane l)) (hp : (s.lane l).round.pause = none)
    (ha : (s.lane l).recoveryArmed = false) (hr : (s.lane l).readbackRun ≤ 2) :
    LaneWf ((Machine.enterResume l cause s).lane l) := by
  unfold Machine.enterResume
  split
  · exact h.enterRunning ha hr
  · exact h.enterHalted hp ha hr

/-- Entry into FAULTED from rest (R126). -/
theorem RestWf.enterFaulted {s : State} {l : LaneId} {cause : Cause} (h : RestWf (s.lane l))
    (hp : (s.lane l).condition ≠ .running → (s.lane l).round.pause = none) :
    LaneWf ((Machine.enterFaulted l cause s).lane l) := by
  rw [enterFaulted_eq cause rfl, State.lane_setLane_reports]
  generalize s.lane l = L at h hp
  have hround : ∀ r, r = (if L.condition = .running ∨ L.condition = .halting then L.round.abandoned else L.round) →
      r.pause = none ∧ r.position ≤ L.schedules.active.length ∧ r.streak ≤ 2 := by
    rintro r rfl
    split
    · exact ⟨rfl, Nat.zero_le _, Nat.zero_le _⟩
    · rename_i hc
      exact ⟨hp fun hr => hc (.inl hr), h.accounts.roundPosition, h.accounts.streak⟩
  obtain ⟨hpause, hpos, hstreak⟩ := hround _ rfl
  refine RestWf.laneWf ?_ (by simp) (by simp) (by simp) (Nat.zero_le 2) (by simp [hpause])
  exact
    { h with
      driving := rfl
      runs := ⟨h.runs.dominantRun, Nat.zero_le _, h.runs.waited⟩
      accounts := { h.accounts with queue := Nat.zero_le _, roundPosition := hpos, streak := hstreak } }

end Sys2Proof.Machine
end

section
/-!
The ending of a transaction, in two parts: what its stages leave in the lane engine, and what the condition of the lane then makes of it
(R53).
-/

namespace Sys2Proof.Machine

open Sys2Proof

variable {l : LaneId} {s : State} {t : Transaction} {o : TxOutcome} {cell bit : Nat}

/-! ## The stages of an ending -/

/-- A lane engine behind stages 2 to 7 of an ending, with the transaction record removed (R29, R53 to R56, R78). -/
def Lane.ended (L : Lane) (t : Transaction) (o : TxOutcome) (cell bit : Nat) : Lane :=
  { L with
    transaction := none
    line :=
      { L.line with
        position := none, drainOwed := L.line.drainOwed || o.owesDrain, sent := 0, waited := 0, cell := none }
    counts := L.counts.take o
    readbackRun := if o = .readbackError then bump 3 L.readbackRun else 0
    capture :=
      if o.faulty && L.capture.isNone then some { outcome := o, slot := t.slot, cell, bit, round := L.round.counter } else L.capture
    faultsSince := if o.faulty && L.capture.isSome then bump 255 L.faultsSince else L.faultsSince
    round := { L.round with worked := L.round.worked || (L.condition = .running && !L.schedules.active.isEmpty) } }

/-- Stage 8 of an ending behind the removal of the record: a follow-up, or what the condition of the lane makes of the ending (R53). -/
def afterEnding (l : LaneId) (t : Transaction) (o : TxOutcome) (followUp : Bool) (s : State) : State :=
  if followUp then beginFollowUp l t s
  else if 3 ≤ (s.lane l).readbackRun then enterFaulted l .readback s
  else if o = .lineStuck then enterFaulted l .stuck s
  else
    match (s.lane l).condition with
    | .running => choose l (swapIfEmpty l s)
    | .halting => enterHalted l .request (resetRound l s)
    | .sleepPending => if t.source = .sleepCall ∧ o = .done then s else beginSleepCall l s
    | .halted | .sleeping | .waking | .faulted => s

theorem State.lane_takeEnding (s : State) (l : LaneId) (ref : SlotRef) (o : TxOutcome) (d : Delivery) (p : PendingResult)
    (followUp : Bool) : (takeEnding ref o d p followUp s).lane l = s.lane l := by
  simp only [State.lane, (SlotsOnly.takeEnding ref o d p followUp s).lanes]

theorem State.lane_completeOneShot (s : State) (l : LaneId) (t : Transaction) (o : TxOutcome) :
    (completeOneShot l t o s).lane l = s.lane l := by
  unfold completeOneShot
  split
  · rfl
  · split <;> rfl

theorem State.lane_captureFault (s : State) (l : LaneId) (o : TxOutcome) (slot : SlotId) (cell bit : Nat) :
    (captureFault l o slot cell bit s).lane l =
      { s.lane l with
        capture :=
          if o.faulty && (s.lane l).capture.isNone then some { outcome := o, slot, cell, bit, round := (s.lane l).round.counter }
          else (s.lane l).capture
        faultsSince := if o.faulty && (s.lane l).capture.isSome then bump 255 (s.lane l).faultsSince else (s.lane l).faultsSince } := by
  unfold captureFault
  cases hf : o.faulty
  · simp
  · cases hc : (s.lane l).capture <;> simp [hc]

theorem State.lane_markWorked (s : State) (l : LaneId) :
    (markWorked l s).lane l =
      { s.lane l with
        round :=
          { (s.lane l).round with
            worked := (s.lane l).round.worked || ((s.lane l).condition = .running && !(s.lane l).schedules.active.isEmpty) } } := by
  rw [markWorked, State.lane_onLane_self]
  split
  · rename_i h
    simp [h.1, h.2, Lane.onRound]
  · rename_i h
    have : (decide ((s.lane l).condition = .running) && !(s.lane l).schedules.active.isEmpty) = false := by
      simpa using h
    rw [this, Bool.or_false]

/-- An ending is its stages, which leave the lane engine ended, and then what the condition of the lane makes of it. -/
theorem endTransaction_eq (ht : (s.lane l).transaction = some t) :
    ∃ u, endTransaction l o cell bit s = afterEnding l t o (t.followsUp o) u ∧ u.lane l = (s.lane l).ended t o cell bit := by
  refine ⟨_, by simp only [endTransaction, ht]; rfl, ?_⟩
  simp only [State.lane_markWorked, State.lane_onLane_self, State.lane_completeOneShot, State.lane_captureFault, countEnding,
    State.lane_takeEnding, settleLine, Lane.onLine]
  rfl

/-! ## What an ending needs, and what it leaves -/

/-- A lane engine whose transaction may end: what holds whatever its line has come to. -/
structure EndingWf (L : Lane) (t : Transaction) : Prop where
  transaction : L.transaction = some t
  condition : L.condition = .running ∨ L.condition = .halting ∨ L.condition = .sleepPending
  forbidden : L.condition = .halting ∨ L.condition = .sleepPending → t.source = .sleepCall ∨ t.followUpsForbidden = true
  armed : L.recoveryArmed = false
  readbackRun : L.readbackRun ≤ 2
  pause : L.round.pause = none
  accounts : AccountsWf L

theorem LaneWf.ending {L : Lane} (h : LaneWf L) (ht : L.transaction = some t) : EndingWf L t := by
  have hidle := fun hc => Option.some_ne_none t (ht ▸ h.idle hc)
  have hc : L.condition = .running ∨ L.condition = .halting ∨ L.condition = .sleepPending := by
    cases hc : L.condition <;> simp [hc] at hidle ⊢
  refine ⟨ht, hc, fun hc => h.forbidden hc t ht, ?_, h.readbackRun, ?_, h.accounts⟩
  · cases ha : L.recoveryArmed with
    | false => rfl
    | true => simp [h.armed ha] at hc
  · cases hp : L.round.pause with
    | none => rfl
    | some n => simp [(h.pause n hp).2.2.1] at ht

theorem LaneCounts.take_le {c : LaneCounts} (o : TxOutcome) (h : c.good ≤ 65535 ∧ c.silent ≤ 65535 ∧ c.faulty ≤ 65535) :
    (c.take o).good ≤ 65535 ∧ (c.take o).silent ≤ 65535 ∧ (c.take o).faulty ≤ 65535 := by
  obtain ⟨hg, hs, hf⟩ := h
  unfold LaneCounts.take
  split
  · exact ⟨bump_le .., hs, hf⟩
  · exact ⟨hg, bump_le .., hf⟩
  · exact ⟨hg, hs, bump_le ..⟩

/-- The stages of an ending leave the lane engine at rest. -/
theorem EndingWf.rest {L : Lane} (h : EndingWf L t) (hd : L.line.driving = false) (hr : RunsWf L.line) (o : TxOutcome) (cell bit : Nat) :
    RestWf (L.ended t o cell bit) where
  transaction := rfl
  driving := hd
  cell := rfl
  position := rfl
  runs := ⟨hr.dominantRun, hr.recessiveRun, Nat.zero_le _⟩
  accounts :=
    { h.accounts with
      counts := LaneCounts.take_le o h.accounts.counts
      capture := fun c hc => by
        simp only [Lane.ended] at hc
        split at hc
        · rename_i hf
          obtain rfl := Option.some.inj hc
          exact (Bool.and_eq_true _ _ ▸ hf).1
        · exact h.accounts.capture c hc
      faultsSince := by
        obtain ⟨hle, h0⟩ := h.accounts.faultsSince
        cases hf : o.faulty <;> cases hc : L.capture <;> simp [Lane.ended, hf, hc, hle, h0, bump_le] }

theorem Transaction.followsUp_iff (t : Transaction) (o : TxOutcome) :
    t.followsUp o = true ↔ (t.source = .scheduled ∨ t.source = .followUp) ∧ t.kind = .contended ∧ (o = .done ∨ o = .checkError)
      ∧ t.pendingResult = .seen ∧ 1 ≤ t.allowance.getD 0 ∧ t.followUpsForbidden = false := by
  simp [Transaction.followsUp, and_assoc]

/-- An ending leaves what the condition of the lane allows. -/
theorem EndingWf.endTransaction (h : EndingWf (s.lane l) t) (hd : (s.lane l).line.driving = false) (hr : RunsWf (s.lane l).line) :
    LaneWf ((Machine.endTransaction l o cell bit s).lane l) := by
  obtain ⟨u, hu, hlane⟩ := endTransaction_eq (o := o) (cell := cell) (bit := bit) h.transaction
  rw [hu]
  have rest : RestWf (u.lane l) := hlane ▸ h.rest hd hr o cell bit
  have condition : (u.lane l).condition = (s.lane l).condition := by rw [hlane]; rfl
  have armed : (u.lane l).recoveryArmed = false := by rw [hlane]; exact h.armed
  have pause : (u.lane l).round.pause = none := by rw [hlane]; exact h.pause
  have wf : (s.lane l).condition ≠ .halting → (u.lane l).readbackRun ≤ 2 → LaneWf (u.lane l) := by
    intro hh hr
    have hc := h.condition
    rw [← condition] at hc hh
    exact rest.laneWf hh (fun hq => by rcases hq with hq | hq <;> simp [hq] at hc) (by simp [armed]) hr (by simp [pause])
  unfold afterEnding
  split
  · rename_i hf
    obtain ⟨hsrc, -, ho, -, hallow, hforbid⟩ := (t.followsUp_iff o).mp hf
    have running : (s.lane l).condition = .running := by
      refine h.condition.resolve_right fun hc => ?_
      rcases h.forbidden hc with hs | hs
      · simp [hs] at hsrc
      · simp [hs] at hforbid
    have hrun : (u.lane l).readbackRun ≤ 2 := by rw [hlane]; rcases ho with rfl | rfl <;> exact Nat.zero_le 2
    have hsome : t.allowance.isSome = true := by
      cases ha : t.allowance with
      | none => simp [ha] at hallow
      | some n => rfl
    rw [beginFollowUp, State.lane_begin]
    exact (wf (by simp [running]) hrun).begun rest.transaction (.inl (condition.trans running)) pause
      (.begin rfl rfl rfl rfl rfl (by simp [Transaction.begin]) (fun _ => rfl) nofun (by simp [Transaction.begin, hsome])) rfl
      (by simp [Transaction.begin, condition, running])
  · split
    · exact rest.enterFaulted fun _ => pause
    · rename_i hrun
      have hrun : (u.lane l).readbackRun ≤ 2 := by omega
      split
      · exact rest.enterFaulted fun _ => pause
      · split
        · rename_i hc
          have hw : LaneWf ((swapIfEmpty l u).lane l) ∧ ((swapIfEmpty l u).lane l).transaction = none
              ∧ ((swapIfEmpty l u).lane l).condition = .running := by
            have hw := wf (by simp [← condition, hc]) hrun
            unfold swapIfEmpty
            split
            · rw [State.lane_swapStaged]
              exact ⟨hw.afterSwap pause, rest.transaction, hc⟩
            · exact ⟨hw, rest.transaction, hc⟩
          exact ChoosingWf.choose ⟨hw.1, hw.2.1, hw.2.2⟩
        · have hreset : (resetRound l u).lane l = { u.lane l with round := (u.lane l).round.abandoned } := u.lane_onLane_self ..
          refine RestWf.enterHalted (s := resetRound l u) ?_ ?_ ?_ ?_ <;> rw [hreset]
          · exact { rest with accounts := { rest.accounts with roundPosition := Nat.zero_le _, streak := Nat.zero_le _ } }
          · rfl
          · exact armed
          · exact hrun
        · rename_i hc
          have hw := wf (by simp [← condition, hc]) hrun
          split
          · exact hw
          · rw [beginSleepCall, State.lane_begin]
            exact hw.begun_sleepCall rest.transaction hc _
        all_goals
          rename_i hc
          exact wf (by simp [← condition, hc]) hrun

end Sys2Proof.Machine
end

section
/-!
How the accounts of a lane engine stand after an ending (R29, R52, R54 to R56).
-/

namespace Sys2Proof.Machine

open Sys2Proof

variable {l : LaneId} {s : State} {t : Transaction} {o : TxOutcome} {cell bit : Nat}

/-! ## The levels of a single bit time -/

theorem dominant_iff (filter : Bool) (x : Samples 1) : x.dominant filter = true ↔ x.levels filter = 0#1 := by
  simp [Samples.dominant]

theorem dominant_eq_iff (filter : Bool) (x : Samples 1) (recessive : Bool) :
    x.dominant filter = recessive ↔ (x.levels filter = 0#1 ↔ recessive = true) := by
  rw [← dominant_iff, Bool.eq_iff_iff]

/-! ## The levels that a transaction sends -/

theorem levelsSent_call (h : t.phase = .call) :
    t.levelsSent = List.replicate 12 false ++ [true] ++ cellLevels (numberCell t.slot.val) := by
  simp only [Transaction.levelsSent, h, markerLevels]

theorem levelsSent_send (h : t.phase = .send) (hk : t.kind = .published) :
    t.levelsSent = (publishCells t.slot (t.sendData.getD [])).flatMap cellLevels := by
  simp only [Transaction.levelsSent, h, Transaction.cellsSent, hk, if_true, List.drop_succ_cons, List.drop_zero]

theorem placeSent_call (h : t.phase = .call) (i : Nat) : t.placeSent i = (0, i - 13) := by simp only [Transaction.placeSent, h]

theorem placeSent_send (h : t.phase = .send) (i : Nat) : t.placeSent i = (1 + i / 10, i % 10) := by
  simp only [Transaction.placeSent, h]

/-! ## Every ending is an ending of the lane engine -/

/-- The ending of a transaction from a state whose lane differs in its transaction record and its line alone. -/
def EndsFrom (s : State) (l : LaneId) (t : Transaction) (o : TxOutcome) (cell bit : Nat) (r : Host.Outcome State Fault Refusal) : Prop :=
  ∃ u x, r = .next (endTransaction l o cell bit u) ∧ u.lane l = { s.lane l with transaction := some t, line := x }
    ∧ x.drainOwed = (s.lane l).line.drainOwed

theorem endsFrom_onLine (ht : (s.lane l).transaction = some t) (f : LineState → LineState)
    (hf : (f (s.lane l).line).drainOwed = (s.lane l).line.drainOwed) :
    EndsFrom s l t o cell bit (.next (endTransaction l o cell bit (s.onLine l f))) := by
  refine ⟨_, f (s.lane l).line, rfl, ?_, hf⟩
  rw [State.onLine, State.lane_onLane_self, Lane.onLine, ← ht]

/-- Behind a cell with a recessive stop bit. -/
theorem endsFrom_cell (ht : (s.lane l).transaction = some t) (n : Nat) :
    EndsFrom s l t o cell bit (.next (endTransaction l o cell bit (s.setLane l { s.lane l with
      line := { (s.lane l).line with dominantRun := 0, recessiveRun := n, waited := 0, cell := none } }))) :=
  endsFrom_onLine ht (fun x => { x with dominantRun := 0, recessiveRun := n, waited := 0, cell := none }) rfl

/-- A command that ends a transaction answers with the ending of the lane engine. -/
theorem Ends.endsFrom {c : Instr} (h : Ends s l c t o cell bit) : EndsFrom s l t o cell bit (exec c s) := by
  cases h with
  | noResponse _ ht hp =>
    have : exec (.responseTimeout l) s = execResponseTimeout l s := rfl
    simp only [this, execResponseTimeout, inPhase, ht, hp, if_true]
    exact endsFrom_onLine ht (fun x => x.recessiveFor ((s.lane l).config.responseTimeout - x.waited)) rfl
  | framing _ _ cell ht hp hc hfit hstop =>
    have dominant : cellStopDominant (cell.levels (s.lane l).config.sampleFilter) = true := by
      simpa [cellStopDominant, BitVec.msb_eq_getLsbD_last] using hstop
    rcases hc with ⟨rfl, ha⟩ | ⟨rfl, ha⟩ | ⟨rfl, ha⟩ | ⟨rfl, ha⟩
    all_goals
      refine Eq.mpr (congrArg _ ((receiveCell_eq ht hp ha hfit).trans (takeCell_of_dominant l s t _ dominant))) ?_
      exact endsFrom_onLine ht _ (LineState.drainOwed_afterCell ..)
  | tagError _ cell v ht hp ha hv hfit hbad =>
    have taken : exec (.tagCellReceived l cell) s = _ := receiveCell_eq (check := takeTag) ht hp ha (hv ▸ hfit)
    rw [taken, hv, takeCell_of_recessive, takeTag, tagOfCell_eq_none v hbad]
    exact endsFrom_cell ht _
  | headerError _ cell v ht hp ha hv hfit hbad =>
    have taken : exec (.headerCellReceived l cell) s = _ := receiveCell_eq (check := takeHeader) ht hp ha (hv ▸ hfit)
    rw [taken, hv, takeCell_of_recessive, takeHeader, headerOfCell_eq_none v hbad]
    exact endsFrom_cell ht _
  | lengthMismatch _ cell rule length attention ht hp ha hlen hv hfit hrule hadmits =>
    have taken : exec (.headerCellReceived l cell) s = _ := receiveCell_eq (check := takeHeader) ht hp ha (hv ▸ hfit)
    rw [taken, hv, takeCell_of_recessive, takeHeader, headerOfCell_headerCell length hlen]
    simp only [State.slot_setLane, hrule, hadmits, Bool.false_eq_true, if_false]
    exact endsFrom_cell ht _
  | check _ cell v ht hp ha hk hv hfit =>
    have taken : exec (.checkCellReceived l cell) s = _ := receiveCell_eq (check := takeCheck) ht hp ha (hv ▸ hfit)
    rw [taken, hv, takeCell_of_recessive, takeCheck, if_neg hk]
    simp only [beq_iff_eq]
    exact endsFrom_cell ht _
  | gapTimeout _ ht hp hbehind hcell =>
    have : exec (.gapTimeout l) s = execGapTimeout l s := rfl
    have behind : (t.tag.isNone && t.header.isNone || (s.lane l).line.cell.isSome) = false := by
      rcases hbehind with h | h <;> rw [hcell, Option.isNone_eq_false_iff.mpr h] <;> simp
    simp only [this, execGapTimeout, inPhase, ht, hp, if_true, behind, Bool.false_eq_true, if_false]
    exact endsFrom_onLine ht (fun x => x.recessiveFor ((s.lane l).config.gapLimit - x.waited)) rfl
  | window t bit ht hp =>
    have : exec (.pendingWindowEnd l bit) s = execPendingWindowEnd l bit s := rfl
    simp only [this, execPendingWindowEnd, inPhase, ht, hp, if_true, endWindow, dominant_iff]
    refine ⟨_, _, rfl, State.lane_onLane_self .., ?_⟩
    split <;> rfl
  | published _ ht hp =>
    have : exec (.publishComplete l) s = execPublishComplete l s := rfl
    simp only [this, execPublishComplete, inPhase, ht, hp, if_true]
    exact endsFrom_onLine ht _ rfl
  | readbackCall _ ahead read recessive ht hp hbit hread =>
    have : exec (.readbackError l ahead read) s = execReadbackError l ahead read s := rfl
    rw [← levelsSent_call hp] at hbit
    simp only [this, execReadbackError, ht, hbit, (dominant_eq_iff ..).mpr hread, if_true, failReadback, placeSent_call hp]
    exact endsFrom_onLine ht _ rfl
  | readbackSend _ ahead read recessive ht hp hk hbit hread =>
    have : exec (.readbackError l ahead read) s = execReadbackError l ahead read s := rfl
    rw [← levelsSent_send hp hk] at hbit
    simp only [this, execReadbackError, ht, hbit, (dominant_eq_iff ..).mpr hread, if_true, failReadback, placeSent_send hp]
    exact endsFrom_onLine ht _ rfl
  | stuck _ ht hp =>
    have : exec (.stuckFault l) s = raiseStuck l s := rfl
    simp only [this, raiseStuck, ht, hp, if_true]
    exact endsFrom_onLine ht _ rfl

/-! ## What follows an ending keeps the accounts -/

/-- The accounts of two lane engines are the same, but for the readback-error run (R29, R54, R56). -/
structure SameAccounts (L M : Lane) : Prop where
  counts : M.counts = L.counts
  capture : M.capture = L.capture
  faultsSince : M.faultsSince = L.faultsSince
  drainOwed : M.line.drainOwed = L.line.drainOwed

theorem SameAccounts.refl (L : Lane) : SameAccounts L L := ⟨rfl, rfl, rfl, rfl⟩

/-- The choice keeps the accounts, and the readback-error run with them. -/
theorem choose_keeps_accounts (s : State) (l : LaneId) :
    SameAccounts (s.lane l) ((choose l s).lane l) ∧ ((choose l s).lane l).readbackRun = (s.lane l).readbackRun := by
  have rule : ChoiceRule (fun M => SameAccounts (s.lane l) M ∧ M.readbackRun = (s.lane l).readbackRun)
      (fun M => SameAccounts (s.lane l) M ∧ M.readbackRun = (s.lane l).readbackRun) :=
    { rest := id
      advanced := fun h _ => ⟨{ h.1 with }, h.2⟩
      scheduled := fun _ _ _ h _ _ => ⟨{ h.1 with }, h.2⟩
      oneShot := fun _ _ _ h _ => ⟨{ h.1 with }, h.2⟩
      roundEnded := fun h => ⟨{ h.1 with }, h.2⟩ }
  exact rule.choose ⟨.refl _, rfl⟩

/-- Stage 8 of an ending keeps the accounts; a fault that it leads to ends the readback-error run. -/
theorem afterEnding_keeps_accounts (l : LaneId) (t : Transaction) (o : TxOutcome) (followUp : Bool) (s : State) :
    SameAccounts (s.lane l) ((afterEnding l t o followUp s).lane l)
      ∧ ((afterEnding l t o followUp s).lane l).readbackRun =
          if followUp = false ∧ (3 ≤ (s.lane l).readbackRun ∨ o = .lineStuck) then 0 else (s.lane l).readbackRun := by
  have faulted : ∀ cause, SameAccounts (s.lane l) ((enterFaulted l cause s).lane l)
      ∧ ((enterFaulted l cause s).lane l).readbackRun = 0 := by
    intro cause
    rw [enterFaulted_eq cause rfl, State.lane_setLane_reports]
    exact ⟨⟨rfl, rfl, rfl, rfl⟩, rfl⟩
  unfold afterEnding
  split
  · rename_i hf
    rw [beginFollowUp, State.lane_begin]
    exact ⟨⟨rfl, rfl, rfl, rfl⟩, by simp [hf, Lane.begun]⟩
  · rename_i hf
    have hf : followUp = false := by simpa using hf
    split
    · rename_i hr
      rw [if_pos ⟨hf, .inl hr⟩]
      exact faulted _
    · rename_i hr
      split
      · rename_i ho
        rw [if_pos ⟨hf, .inr ho⟩]
        exact faulted _
      · rename_i ho
        have stays : (if followUp = false ∧ (3 ≤ (s.lane l).readbackRun ∨ o = .lineStuck) then 0 else (s.lane l).readbackRun)
            = (s.lane l).readbackRun := if_neg fun h => h.2.elim hr ho
        rw [stays]
        split
        · have swapped : (swapIfEmpty l s).lane l = s.lane l ∨ (swapIfEmpty l s).lane l = (s.lane l).afterSwap := by
            unfold swapIfEmpty
            split
            · exact .inr (State.lane_swapStaged s l)
            · exact .inl rfl
          obtain ⟨hs, hr⟩ := choose_keeps_accounts (swapIfEmpty l s) l
          rcases swapped with h | h <;> rw [h] at hs hr <;> exact ⟨{ hs with }, hr⟩
        · rw [enterHalted_eq rfl, State.lane_setLane_reports]
          have reset : (resetRound l s).lane l = { s.lane l with round := (s.lane l).round.abandoned } := s.lane_onLane_self ..
          rw [reset]
          exact ⟨⟨rfl, rfl, rfl, rfl⟩, rfl⟩
        · split
          · exact ⟨.refl _, rfl⟩
          · rw [beginSleepCall, State.lane_begin]
            exact ⟨⟨rfl, rfl, rfl, rfl⟩, rfl⟩
        all_goals exact ⟨.refl _, rfl⟩

/-! ## The accounts of an ended transaction -/

theorem LaneCounts.take_eq (c : LaneCounts) (o : TxOutcome) : c.take o =
    { good := if o = .done then min (c.good + 1) 65535 else c.good
      silent := if o = .noResponse then min (c.silent + 1) 65535 else c.silent
      faulty := if o ≠ .done ∧ o ≠ .noResponse then min (c.faulty + 1) 65535 else c.faulty } := by
  cases o <;> rfl

theorem TxOutcome.faulty_iff (o : TxOutcome) : o.faulty = true ↔ o ≠ .done ∧ o ≠ .noResponse := by
  simp [TxOutcome.faulty]

theorem TxOutcome.owesDrain_eq (o : TxOutcome) : o.owesDrain =
    (o = .headerError || o = .lengthMismatch || o = .tagError || o = .framingError || o = .readbackError) := by
  cases o <;> rfl

/-- The readback-error run after an ending: three in a row fault the lane, which ends the run, and every other outcome ends it (R55). -/
theorem readbackRun_after (t : Transaction) (o : TxOutcome) (n : Nat) :
    (if t.followsUp o = false ∧ (3 ≤ (if o = .readbackError then bump 3 n else 0) ∨ o = .lineStuck) then 0
      else if o = .readbackError then bump 3 n else 0) = if o = .readbackError ∧ n < 2 then n + 1 else 0 := by
  by_cases ho : o = .readbackError
  · subst ho
    have hf : t.followsUp .readbackError = false := by simp [Transaction.followsUp]
    simp only [hf, bump, if_true, true_and, reduceCtorEq, or_false]
    split <;> split <;> omega
  · simp [ho]

/-- Settles O41: the stages of the ending give the accounts, and what follows them keeps them. -/
theorem everyEndingSettlesTheAccounts : Obligations.EveryEndingSettlesTheAccounts := by
  intro s l c t o cell bit h
  obtain ⟨u, x, hexec, hu, hx⟩ := h.endsFrom
  obtain ⟨v, hv, hlane⟩ := endTransaction_eq (o := o) (cell := cell) (bit := bit) (s := u) (l := l) (t := t) (by rw [hu])
  obtain ⟨same, hrun⟩ := afterEnding_keeps_accounts l t o (t.followsUp o) v
  rw [hlane, hu] at same hrun
  refine ⟨_, hexec, ?_⟩
  rw [hv]
  refine ⟨same.counts.trans (LaneCounts.take_eq _ o), hrun.trans (readbackRun_after t o _), same.capture.trans ?_,
    same.faultsSince.trans ?_, same.drainOwed.trans ?_⟩
  · simp [Lane.ended, TxOutcome.faulty_iff]
  · simp [Lane.ended, TxOutcome.faulty_iff, bump, Option.isSome_iff_ne_none]
  · simp [Lane.ended, hx, TxOutcome.owesDrain_eq, Bool.or_assoc]

end Sys2Proof.Machine
end

section
/-!
Every event of a lane keeps what its engine holds in each condition: the events of a transaction, and the line events (R26 to R55, R115 to
R129).
-/

namespace Sys2Proof.Machine

open Sys2Proof

variable {l : LaneId} {s : State} {t : Transaction} {L : Lane}

/-- The engine of a lane holds what its condition allows. -/
def KeepsLane (l : LaneId) (s : State) : Prop := LaneWf (s.lane l)

theorem keepsLane_onLane {f : Lane → Lane} (h : LaneWf (f (s.lane l))) : KeepsLane l (s.onLane l f) := by
  rw [KeepsLane, State.lane_onLane_self]; exact h

theorem LaneWf.pause_eq_none (h : LaneWf L) (hc : L.condition ≠ .running ∨ L.transaction ≠ none) : L.round.pause = none := by
  cases hp : L.round.pause with
  | none => rfl
  | some n =>
    obtain ⟨-, hr, ht, -⟩ := h.pause n hp
    exact (hc.elim (· hr) (· ht)).elim

/-! ## Bits sent -/

/-- A cell that is sent begins with its dominant start bit (R41). -/
theorem publishLevels_zero (slot : SlotId) (data : List Byte) :
    ((publishCells slot data).flatMap cellLevels)[0]? = some false := rfl

theorem levelsSent_call_zero (h : t.phase = .call) : t.levelsSent[0]? = some false := by
  rw [levelsSent_call h]; rfl

/-- GAP_WAIT_COMPLETE begins the call marker. -/
theorem keepsLane_gapWaitComplete (h : LaneWf (s.lane l)) : NextIs (KeepsLane l) (execGapWaitComplete l s) := by
  refine nextIs_inPhase fun t ht hp => .next (keepsLane_onLane (h.goOn ht ?_ ?_ rfl rfl))
  · exact { h.transaction t ht with
      answered := by simp
      sends := by simp
      window := by simp
      header := fun hd hh => by
        obtain ⟨hle, hlen, -⟩ := (h.transaction t ht).header hd hh
        exact ⟨hle, hlen, by simp⟩ }
  · have hcell : (s.lane l).line.cell = none := (h.call ht).cell_eq_none (by simp [hp])
    have sent : CallWf { t with phase := .call, sendData := t.snapshot (s.slot ⟨l, t.slot⟩) } _ :=
      .of_sending (x := (s.lane l).line) (.inl rfl) (levelsSent_call_zero rfl) hcell h.runs
    exact { sent with runs := ⟨sent.runs.dominantRun, sent.runs.recessiveRun, sent.runs.waited⟩ }

/-- The end of the call takes the engine to AWAIT or SEND. -/
theorem keepsLane_completeCall (h : LaneWf (s.lane l)) (ht : (s.lane l).transaction = some t) (hp : t.phase = .call) :
    KeepsLane l (completeCall l t s) := by
  have hcell : (s.lane l).line.cell = none := (h.call ht).cell_eq_none (by simp [hp])
  have hw := h.transaction t ht
  have header : ∀ hd, t.header = some hd → hd.length ≤ 12 ∧ t.data.length ≤ hd.length := fun hd hh =>
    ⟨(hw.header hd hh).1, (hw.header hd hh).2.1⟩
  have sending : t.kind = .published → LaneWf { s.lane l with
      transaction := some { t with phase := .send }, line := (s.lane l).line.send 0 (1, 0) false } := by
    intro hk
    refine h.goOn ht ?_ (.of_sending (.inr rfl) ?_ hcell h.runs) rfl rfl
    · exact { hw with
        answered := by simp
        sends := fun _ => hk
        window := by simp
        header := fun hd hh => ⟨(header hd hh).1, (header hd hh).2, by simp⟩ }
    · exact (congrArg (·[0]?) (levelsSent_send (t := { t with phase := .send }) rfl hk)).trans (publishLevels_zero ..)
  have awaiting : t.kind ≠ .published → LaneWf { s.lane l with
      transaction := some { t with phase := .await }
      line := { (s.lane l).line.sentWhole t.levelsSent with position := some (1, 0) } } := by
    intro hk
    refine h.goOn ht ?_ (.of_listening (by simp) (by simp) rfl hcell (by simp) rfl ?_) rfl rfl
    · exact { hw with
        answered := fun _ => hk
        sends := by simp
        window := by simp
        header := fun hd hh => ⟨(header hd hh).1, (header hd hh).2, by simp⟩ }
    · have hr := RunsWf.sentWhole (s.lane l).line t
      exact ⟨hr.dominantRun, hr.recessiveRun, hr.waited⟩
  refine keepsLane_onLane ?_
  split <;> rename_i hk
  · exact sending hk
  · exact awaiting (by simp [hk])
  · exact awaiting (by simp [hk])

/-- A transaction that ends behind a change of the line that releases it. -/
theorem keepsLane_end_onLine {o : TxOutcome} {cell bit : Nat} {f : LineState → LineState} (h : LaneWf (s.lane l))
    (ht : (s.lane l).transaction = some t) (hd : (f (s.lane l).line).driving = false) (hr : RunsWf (f (s.lane l).line)) :
    KeepsLane l (endTransaction l o cell bit (s.onLine l f)) := by
  have lane : (s.onLine l f).lane l = { s.lane l with line := f (s.lane l).line } := s.lane_onLane_self ..
  refine EndingWf.endTransaction (t := t) ?_ ?_ ?_ <;> rw [lane]
  · exact { h.ending ht with accounts := { h.accounts with } }
  · exact hd
  · exact hr

theorem keepsLane_failReadback (h : LaneWf (s.lane l)) (ht : (s.lane l).transaction = some t) (i : Nat) :
    KeepsLane l (failReadback l t i s) := keepsLane_end_onLine h ht rfl (.release _)

theorem keepsLane_completePublish (h : LaneWf (s.lane l)) (ht : (s.lane l).transaction = some t) :
    KeepsLane l (completePublish l t s) := keepsLane_end_onLine h ht rfl (.sentWhole _ t)

/-- A bit that is read back. -/
theorem keepsLane_readBack (h : LaneWf (s.lane l)) (ht : (s.lane l).transaction = some t) (hp : t.phase = .call ∨ t.phase = .send)
    (dominant : Bool) : NextIs (KeepsLane l) (readBack l t dominant s) := by
  have hcell : (s.lane l).line.cell = none := (h.call ht).cell_eq_none (by rcases hp with hp | hp <;> simp [hp])
  unfold readBack
  simp only
  split
  · exact .refused _
  · rename_i recessive _
    refine nextIs_ite (fun _ => .next (keepsLane_failReadback h ht _)) fun _ => ?_
    split
    · rename_i next hnext
      refine .next (keepsLane_onLane ?_)
      have runs : RunsWf (if recessive = true then (s.lane l).line.recessiveFor 1 else (s.lane l).line) := by
        split
        · exact h.runs.recessiveFor 1
        · exact h.runs
      have cell : (if recessive = true then (s.lane l).line.recessiveFor 1 else (s.lane l).line).cell = none := by
        split <;> exact hcell
      have := h.goOn ht (h.transaction t ht) (.of_sending hp hnext cell runs) rfl rfl
      rwa [← ht] at this
    · refine .next ?_
      split
      · exact keepsLane_completePublish h ht
      · rename_i hs
        exact keepsLane_completeCall h ht (hp.resolve_right hs)

/-! ## Cells received -/

theorem awaitsTag_iff : t.awaitsTag = true ↔ t.kind = .contended ∧ t.tag = none := by simp [Transaction.awaitsTag]

theorem awaitsHeader_iff : t.awaitsHeader = true ↔ t.awaitsTag = false ∧ t.header = none := by simp [Transaction.awaitsHeader]

theorem awaitsData_iff : t.awaitsData = true ↔ t.awaitsTag = false ∧ ∃ h, t.header = some h ∧ t.data.length < h.length := by
  simp [Transaction.awaitsData, Option.any_eq_true]

theorem awaitsCheck_iff : t.awaitsCheck = true ↔ t.awaitsTag = false ∧ ∃ h, t.header = some h ∧ h.length ≤ t.data.length := by
  simp [Transaction.awaitsCheck, Option.any_eq_true]

/-- A cell that is none of the others is the check cell. -/
theorem awaitsCheck_of_not (htag : ¬ t.awaitsTag = true) (hheader : ¬ t.awaitsHeader = true) (hdata : ¬ t.awaitsData = true) :
    t.awaitsCheck = true := by
  have htag : t.awaitsTag = false := by simpa using htag
  rw [awaitsHeader_iff] at hheader
  rw [awaitsData_iff] at hdata
  cases hh : t.header with
  | none => exact absurd ⟨htag, hh⟩ hheader
  | some h => exact awaitsCheck_iff.mpr ⟨htag, h, hh, Nat.le_of_not_lt fun hlt => hdata ⟨htag, h, hh, hlt⟩⟩

theorem headerOfCell_le {v : Byte} {length : Nat} {attention : Bool} (h : headerOfCell v = some (length, attention)) : length ≤ 12 := by
  unfold headerOfCell at h
  simp only at h
  split at h
  · rename_i hc
    obtain ⟨rfl, -⟩ := Prod.mk.inj (Option.some.inj h)
    exact hc.2
  · cases h

/-- A line state behind the last bit of a response cell, before its check. -/
structure CellRead (x : LineState) : Prop where
  driving : x.driving = false
  cell : x.cell = none
  position : x.position.isSome
  runs : RunsWf x

theorem CallWf.cellRead {x : LineState} (h : CallWf t x) (hp : t.phase = .receive) (levels : BitVec 9) : CellRead (x.afterCell levels) where
  driving := (x.driving_afterCell levels).trans (h.released (by simp [hp]) (by simp [hp]))
  cell := x.cell_afterCell levels
  position := by
    have : (x.afterCell levels).position = x.position := by unfold LineState.afterCell; split <;> rfl
    exact this ▸ h.position
  runs := .afterCell ..

/-- A lane engine that has read a response cell of its transaction, before the check of the cell. -/
structure CheckingWf (L : Lane) (t : Transaction) : Prop where
  wf : ∃ x, LaneWf { L with line := x }
  transaction : L.transaction = some t
  phase : t.phase = .receive
  line : CellRead L.line

namespace CheckingWf

theorem ends (h : CheckingWf (s.lane l) t) (o : TxOutcome) (cell bit : Nat) : KeepsLane l (endTransaction l o cell bit s) := by
  obtain ⟨x, hx⟩ := h.wf
  exact EndingWf.endTransaction (t := t) { hx.ending h.transaction with accounts := { hx.accounts with } } h.line.driving h.line.runs

theorem transactionWf (h : CheckingWf L t) : TransactionWf t := by
  obtain ⟨x, hx⟩ := h.wf
  exact hx.transaction t h.transaction

/-- The transaction goes on, to await the next cell or its pending window. -/
theorem goesOn {t' : Transaction} (h : CheckingWf L t) (hw : TransactionWf t')
    (hp : t'.phase = .receive ∧ (t'.tag.isSome ∨ t'.header.isSome) ∨ t'.phase = .window) (hs : t'.source = t.source)
    (hf : t'.followUpsForbidden = t.followUpsForbidden) {place : Nat × Nat} :
    LaneWf { L with transaction := some t', line := { L.line with position := some place } } := by
  obtain ⟨x, hx⟩ := h.wf
  refine hx.goOn h.transaction hw (.of_listening ?_ ?_ h.line.driving h.line.cell ?_ rfl ?_) hs hf
  · rcases hp with ⟨hp, -⟩ | hp <;> simp [hp]
  · rcases hp with ⟨hp, -⟩ | hp <;> simp [hp]
  · rcases hp with ⟨-, hp⟩ | hp
    · exact fun _ => hp
    · simp [hp]
  · exact ⟨h.line.runs.dominantRun, h.line.runs.recessiveRun, h.line.runs.waited⟩

theorem takeTag (h : CheckingWf (s.lane l) t) (ha : t.awaitsTag = true) (v : Byte) : NextIs (KeepsLane l) (takeTag l t v s) := by
  unfold Machine.takeTag
  split
  · exact .next (h.ends ..)
  · rename_i tag _
    refine .next (keepsLane_onLane (h.goesOn (t' := { t with tag := some tag }) ?_ (.inl ⟨h.phase, .inl rfl⟩) rfl rfl))
    exact { h.transactionWf with tag := fun _ => (awaitsTag_iff.mp ha).1 }

theorem takeHeader (h : CheckingWf (s.lane l) t) (ha : t.awaitsHeader = true) (v : Byte) :
    NextIs (KeepsLane l) (takeHeader l t v s) := by
  unfold Machine.takeHeader
  split
  · exact .next (h.ends ..)
  · rename_i length attention hv
    split
    · exact .fault _
    · refine nextIs_ite (fun _ => .next (keepsLane_onLane (h.goesOn (t' := { t with header := some { length, attention } }) ?_
        (.inl ⟨h.phase, .inr rfl⟩) rfl rfl))) fun _ => .next (h.ends ..)
      have data : t.data = [] := h.transactionWf.noHeader (awaitsHeader_iff.mp ha).2
      exact
        { h.transactionWf with
          window := fun hp => by simp [h.phase] at hp
          header := by
            rintro _ ⟨⟩
            exact ⟨headerOfCell_le hv, by simp [data], fun hp => by simp [h.phase] at hp⟩
          noHeader := nofun }

theorem takeData (h : CheckingWf (s.lane l) t) (ha : t.awaitsData = true) (v : Byte) : NextIs (KeepsLane l) (takeData l t v s) := by
  obtain ⟨-, hd, hh, hlt⟩ := awaitsData_iff.mp ha
  refine .next (keepsLane_onLane (h.goesOn (t' := { t with data := t.data ++ [v] }) ?_ (.inl ⟨h.phase, .inr (by simp [hh])⟩) rfl rfl))
  exact
    { h.transactionWf with
      header := fun hd' hh' => by
        obtain rfl : hd = hd' := Option.some.inj (hh.symm.trans hh')
        exact ⟨(h.transactionWf.header hd hh).1, by simpa using hlt, fun hp => by simp [h.phase] at hp⟩
      noHeader := fun hn => by simp [hh] at hn }

theorem takeCheck (h : CheckingWf (s.lane l) t) (ha : t.awaitsCheck = true) (v : Byte) :
    NextIs (KeepsLane l) (takeCheck l t v s) := by
  obtain ⟨-, hd, hh, hle⟩ := awaitsCheck_iff.mp ha
  refine nextIs_ite (fun hk => .next (keepsLane_onLane (h.goesOn
    (t' := { t with phase := .window, checkMatched := v == t.responseCrc }) ?_ (.inr rfl) rfl rfl))) fun _ => .next (h.ends ..)
  exact
    { h.transactionWf with
      answered := by simp
      sends := by simp
      window := fun _ => ⟨hk, by simp [hh]⟩
      header := fun hd' hh' => by
        obtain rfl : hd = hd' := Option.some.inj (hh.symm.trans hh')
        obtain ⟨h12, hlen, -⟩ := h.transactionWf.header hd hh
        exact ⟨h12, hlen, fun _ => Nat.le_antisymm hlen hle⟩ }

theorem takeAwaited (h : CheckingWf (s.lane l) t) (v : Byte) : NextIs (KeepsLane l) (takeAwaited l t v s) := by
  refine nextIs_ite (fun ha => h.takeTag ha v) fun htag => nextIs_ite (fun ha => h.takeHeader ha v) fun hheader =>
    nextIs_ite (fun ha => h.takeData ha v) fun hdata => h.takeCheck ?_ v
  exact awaitsCheck_of_not htag hheader hdata

end CheckingWf

/-- A response cell is read to its end, and then checked. -/
theorem keepsLane_takeCell {check : LaneId → Transaction → Byte → State → Host.Outcome State Fault Refusal} (h : LaneWf (s.lane l))
    (ht : (s.lane l).transaction = some t) (hp : t.phase = .receive) (levels : BitVec 9)
    (hcheck : ∀ v u, CheckingWf (u.lane l) t → NextIs (KeepsLane l) (check l t v u)) :
    NextIs (KeepsLane l) (takeCell l t levels s check) := by
  have read := (h.call ht).cellRead hp levels
  refine nextIs_ite (fun _ => .next (keepsLane_end_onLine h ht read.driving read.runs)) fun _ => hcheck _ _ ?_
  rw [State.onLine, State.lane_onLane_self]
  exact ⟨⟨(s.lane l).line, h⟩, ht, hp, read⟩

theorem keepsLane_receiveCell {check : LaneId → Transaction → Byte → State → Host.Outcome State Fault Refusal}
    {awaited : Transaction → Bool} (h : LaneWf (s.lane l)) (cell : Samples 9)
    (hcheck : ∀ t v u, awaited t = true → CheckingWf (u.lane l) t → NextIs (KeepsLane l) (check l t v u)) :
    NextIs (KeepsLane l) (receiveCell l awaited cell s check) :=
  nextIs_receiveCell fun t levels ht hp ha => keepsLane_takeCell h ht hp levels fun v u => hcheck t v u ha

/-- A confirmed start bit begins the cell awaited. -/
theorem keepsLane_startCell (h : LaneWf (s.lane l)) (ht : (s.lane l).transaction = some t) (hp : t.phase = .await ∨ t.phase = .receive) :
    KeepsLane l (startCell l t s) := by
  have hw := h.transaction t ht
  have released : (s.lane l).line.driving = false := (h.call ht).released (by rcases hp with hp | hp <;> simp [hp])
    (by rcases hp with hp | hp <;> simp [hp])
  refine keepsLane_onLane (h.goOn ht ?_ ?_ rfl rfl)
  · exact
      { hw with
        answered := fun _ => hw.answered hp
        sends := by simp
        window := by simp
        header := fun hd hh => ⟨(hw.header hd hh).1, (hw.header hd hh).2.1, by simp⟩ }
  · exact
      { sending := by simp [levelsSent_eq_nil, released]
        sent := by simp
        receiving := by rintro _ ⟨⟩; exact ⟨Nat.zero_le 8, rfl, rfl⟩
        firstCell := fun _ _ _ => rfl
        position := rfl
        runs := ⟨h.runs.firstDominant.dominantRun, h.runs.firstDominant.recessiveRun, Nat.zero_le _⟩ }

/-- One bit of the cell being received. -/
theorem keepsLane_takeBit {bits : List Bool} (h : LaneWf (s.lane l)) (ht : (s.lane l).transaction = some t)
    (hc : (s.lane l).line.cell = some bits) (dominant : Bool) : NextIs (KeepsLane l) (takeBit l t bits dominant s) := by
  obtain ⟨hlen, hp, -⟩ := (h.call ht).receiving bits hc
  have released : (s.lane l).line.driving = false := (h.call ht).released (by simp [hp]) (by simp [hp])
  refine nextIs_ite (fun _ => keepsLane_takeCell h ht hp _ fun v u hu => hu.takeAwaited v) fun hnine => .next (keepsLane_onLane ?_)
  have runs : RunsWf (if dominant = true then (s.lane l).line.dominantBit else (s.lane l).line.recessiveFor 1) := by
    split
    · exact h.runs.dominantBit
    · exact h.runs.recessiveFor 1
  have driving : (if dominant = true then (s.lane l).line.dominantBit else (s.lane l).line.recessiveFor 1).driving = false := by
    split <;> exact released
  have hlt : (bits ++ [!dominant]).length ≤ 8 := by
    simp only [List.length_append, List.length_singleton] at hnine ⊢
    omega
  have line : CallWf t
      { (if dominant = true then (s.lane l).line.dominantBit else (s.lane l).line.recessiveFor 1) with
        position := some (t.cellIndex, (bits ++ [!dominant]).length), cell := some (bits ++ [!dominant]) } :=
    { sending := by simp [levelsSent_eq_nil, hp, driving]
      sent := by simp [hp]
      receiving := by rintro _ ⟨⟩; exact ⟨hlt, hp, rfl⟩
      firstCell := fun _ _ _ => rfl
      position := rfl
      runs := ⟨runs.dominantRun, runs.recessiveRun, runs.waited⟩ }
  have := h.goOn ht (h.transaction t ht) line rfl rfl
  rwa [← ht] at this

/-- The end of the pending window. -/
theorem keepsLane_endWindow (h : LaneWf (s.lane l)) (ht : (s.lane l).transaction = some t) (hp : t.phase = .window) (seen : Bool) :
    KeepsLane l (endWindow l t seen s) := by
  have released : (s.lane l).line.driving = false := (h.call ht).released (by simp [hp]) (by simp [hp])
  refine EndingWf.endTransaction (t := { t with pendingResult := if seen then .seen else .notSeen }) ?_ ?_ ?_ <;>
    rw [State.lane_onLane_self]
  · exact { h.ending ht with transaction := rfl, accounts := { h.accounts with } }
  · simp only
    split <;> exact released
  · simp only
    split
    · exact h.runs.dominantBit
    · exact h.runs.recessiveFor 1

/-! ## Bit times that are counted -/

theorem RestWf.enterWaking {cause : Cause} (h : RestWf (s.lane l)) (hp : (s.lane l).round.pause = none)
    (ha : (s.lane l).recoveryArmed = false) (hr : (s.lane l).readbackRun ≤ 2) : KeepsLane l (enterWaking l cause s) := by
  have lane : (Machine.enterWaking l cause s).lane l = { s.lane l with condition := .waking } :=
    s.lane_onLane_self l fun L => { L with condition := .waking }
  rw [KeepsLane, lane]
  have rest : RestWf { s.lane l with condition := .waking } := { h with accounts := { h.accounts with } }
  exact rest.laneWf (by simp) (by simp) (by simp [ha]) hr (by simp [hp])

theorem LaneWf.not_armed (h : LaneWf L) (hc : L.condition ≠ .faulted) : L.recoveryArmed = false := by
  cases ha : L.recoveryArmed with
  | false => rfl
  | true => exact absurd (h.armed ha) hc

/-- A lane engine at rest whose line has been counted on. -/
theorem LaneWf.rest_onLine {f : LineState → LineState} (h : LaneWf (s.lane l)) (ht : (s.lane l).transaction = none)
    (hd : (f (s.lane l).line).driving = false) (hp : (f (s.lane l).line).position = (s.lane l).line.position)
    (hc : (f (s.lane l).line).cell = (s.lane l).line.cell) (hr : RunsWf (f (s.lane l).line)) :
    RestWf ((s.onLine l f).lane l) := by
  rw [State.onLine, State.lane_onLane_self]
  exact ⟨ht, hd, hc.trans (h.cell_eq_none ht), hp.trans (h.position_eq_none ht), hr, { h.accounts with }⟩

theorem keepsLane_raiseStuck (h : LaneWf (s.lane l)) : NextIs (KeepsLane l) (raiseStuck l s) := by
  unfold raiseStuck
  split
  · rename_i t ht
    refine nextIs_ite (fun hp => .next (keepsLane_end_onLine h ht ?_ h.runs.stuck)) fun _ => .refused _
    exact (h.call ht).released (by simp [hp]) (by simp [hp])
  · rename_i ht
    refine nextIs_ite (fun _ => .refused _) fun hd => ?_
    have hd : (s.lane l).line.driving = false := by simpa using hd
    have rest : RestWf ((s.onLine l LineState.stuck).lane l) := h.rest_onLine ht hd rfl rfl h.runs.stuck
    have faults : KeepsLane l (enterFaulted l .stuck (s.onLine l LineState.stuck)) := by
      refine rest.enterFaulted ?_
      rw [State.onLine, State.lane_onLane_self]
      exact fun hc => h.pause_eq_none (.inl hc)
    split
    · exact .next (keepsLane_onLane (h.withRuns h.runs.stuck rfl rfl rfl rfl))
    · exact .refused _
    all_goals exact .next faults

theorem keepsLane_countDominant (h : LaneWf (s.lane l)) : NextIs (KeepsLane l) (countDominant l s) :=
  nextIs_ite (fun _ => keepsLane_raiseStuck h) fun _ =>
    .next (keepsLane_onLane ((h.withRuns h.runs.dominantBit rfl rfl rfl rfl).mapPause fun _ => Nat.zero_le 16))

theorem keepsLane_countRecessive (h : LaneWf (s.lane l)) : KeepsLane l (countRecessive l s) :=
  keepsLane_onLane ((h.withRuns (h.runs.recessiveFor 1) rfl rfl rfl rfl).mapPause fun _ =>
    (Nat.min_le_right ..).trans h.config.turnaroundGap.2)

theorem keepsLane_waitOn (h : LaneWf (s.lane l)) : KeepsLane l (s.onLine l LineState.waitOn) :=
  keepsLane_onLane (h.withRuns h.runs.waitOn rfl rfl rfl rfl)

theorem keepsLane_objectToSleep (h : LaneWf (s.lane l)) (ht : (s.lane l).transaction = none)
    (hc : (s.lane l).condition = .sleepPending) : KeepsLane l (objectToSleep l s) := by
  have rest : RestWf ((s.onLine l fun x => { x.firstDominant with waited := 0 }).lane l) :=
    h.rest_onLine ht (h.released ht (by simp [hc])) rfl rfl ⟨h.runs.firstDominant.dominantRun, Nat.zero_le _, Nat.zero_le _⟩
  refine rest.enterWaking ?_ ?_ ?_ <;> rw [State.onLine, State.lane_onLane_self]
  · exact h.pause_eq_none (.inl (by simp [hc]))
  · exact h.not_armed (by simp [hc])
  · exact h.readbackRun

theorem keepsLane_endResponderRun (h : LaneWf (s.lane l)) (hc : (s.lane l).condition = .sleeping) (run : Nat) :
    KeepsLane l (endResponderRun l run s) := by
  have ht : (s.lane l).transaction = none := h.idle (.inr (.inl hc))
  have runs : RunsWf { (s.lane l).line with dominantRun := 0, recessiveRun := 1 } := ⟨Nat.zero_le _, (by decide : 1 ≤ 255), h.waited⟩
  unfold endResponderRun
  simp only
  split
  · have rest : RestWf ((s.onLine l fun x => { x with dominantRun := 0, recessiveRun := 1 }).lane l) :=
      h.rest_onLine ht (h.released ht (by simp [hc])) rfl rfl runs
    refine rest.enterWaking ?_ ?_ ?_ <;> rw [State.onLine, State.lane_onLane_self]
    · exact h.pause_eq_none (.inl (by simp [hc]))
    · exact h.not_armed (by simp [hc])
    · exact h.readbackRun
  · exact keepsLane_onLane (h.withRuns runs rfl rfl rfl rfl)

theorem keepsLane_betweenTransactions (h : LaneWf (s.lane l)) (ht : (s.lane l).transaction = none) (dominant : Bool) :
    NextIs (KeepsLane l) (betweenTransactions l dominant s) := by
  have counts : NextIs (KeepsLane l) (if dominant then countDominant l s else .next (countRecessive l s)) :=
    nextIs_ite (fun _ => keepsLane_countDominant h) fun _ => .next (keepsLane_countRecessive h)
  refine nextIs_ite (fun _ => .next (keepsLane_waitOn h)) fun _ => ?_
  split
  · rename_i hc
    refine .next ?_
    split
    · exact keepsLane_objectToSleep h ht hc
    · exact keepsLane_waitOn (keepsLane_countRecessive h)
  · rename_i hc
    exact nextIs_ite (fun _ => keepsLane_countDominant h) fun _ =>
      nextIs_ite (fun _ => .next (keepsLane_endResponderRun h hc _)) fun _ => .next (keepsLane_countRecessive h)
  all_goals exact counts

theorem keepsLane_inTransaction (h : LaneWf (s.lane l)) (ht : (s.lane l).transaction = some t) (dominant : Bool) :
    NextIs (KeepsLane l) (inTransaction l t dominant s) := by
  have awaits : t.phase = .await ∨ t.phase = .receive →
      KeepsLane l (if dominant then startCell l t s else (countRecessive l s).onLine l LineState.waitOn) := by
    intro hp
    split
    · exact keepsLane_startCell h ht hp
    · exact keepsLane_waitOn (keepsLane_countRecessive h)
  unfold inTransaction
  simp only
  split
  · exact nextIs_ite (fun _ => keepsLane_countDominant h) fun _ => .next (keepsLane_countRecessive h)
  · exact keepsLane_readBack h ht (.inl ‹_›) dominant
  · exact keepsLane_readBack h ht (.inr ‹_›) dominant
  · exact .next (awaits (.inl ‹_›))
  · rename_i hp
    split
    · exact .next (awaits (.inr hp))
    · exact keepsLane_takeBit h ht ‹_› dominant
  · exact .next (keepsLane_endWindow h ht ‹_› dominant)

/-! ## Every lane event -/

/-- The end of a wait that is counted on the recessive run lets the transaction end. -/
theorem keepsLane_timeout {n : Lane → LineState → Nat} {o : TxOutcome} {cell bit : Nat} (h : LaneWf (s.lane l))
    (ht : (s.lane l).transaction = some t) (hc : t.phase ≠ .call) (hs : t.phase ≠ .send) :
    KeepsLane l (endTransaction l o cell bit (s.onLane l fun L => L.onLine fun x => x.recessiveFor (n L x))) :=
  keepsLane_end_onLine (f := fun x => x.recessiveFor (n (s.lane l) x)) h ht ((h.call ht).released hc hs) (h.runs.recessiveFor _)

theorem keepsLane_pauseComplete (h : LaneWf (s.lane l)) : NextIs (KeepsLane l) (execPauseComplete l s) := by
  refine nextIs_inCondition fun hc => ?_
  split
  · exact .refused _
  · rename_i counted hp
    refine .next (ChoosingWf.choose ?_)
    rw [State.lane_onLane_self]
    have runs := h.withRuns (h.runs.recessiveFor ((s.lane l).config.turnaroundGap - counted)) rfl rfl rfl rfl
    exact ⟨{ runs with pause := nofun }, (h.pause counted hp).2.2.1, hc⟩

theorem keepsLane_sleepReleaseComplete (h : LaneWf (s.lane l)) : NextIs (KeepsLane l) (execSleepReleaseComplete l s) := by
  refine nextIs_inReleaseWait fun hc ht => .next ?_
  rw [KeepsLane, completeQueued_eq _ rfl, State.lane_setLane_reports, changeCondition, State.lane_report, State.lane_onLane_self,
    State.lane_onLane_self]
  have rest := h.rest ht (h.released ht (by simp [hc]))
  refine RestWf.laneWf ?_ (by simp) (by simp) ?_ h.readbackRun ?_
  · exact
      { rest with
        runs := ⟨Nat.zero_le _, Nat.min_le_right .., Nat.zero_le _⟩
        accounts := { rest.accounts with queue := Nat.zero_le _ } }
  · simp [Lane.onLine, h.not_armed (show (s.lane l).condition ≠ .faulted by simp [hc])]
  · simp [Lane.onLine, h.pause_eq_none (.inl (show (s.lane l).condition ≠ .running by simp [hc]))]

theorem keepsLane_wakePulseEnd (h : LaneWf (s.lane l)) : NextIs (KeepsLane l) (execWakePulseEnd l s) := by
  refine nextIs_inCondition fun hc => nextIs_ite (fun _ => .next (keepsLane_onLane ?_)) fun _ => .refused _
  have ht : (s.lane l).transaction = none := h.idle (.inr (.inr (.inl hc)))
  have rest : RestWf { s.lane l with line := (s.lane l).line.release } :=
    ⟨ht, rfl, h.cell_eq_none ht, h.position_eq_none ht, .release _, { h.accounts with }⟩
  exact rest.laneWf (by simp [hc]) (by simp [hc]) (by simp [h.not_armed (show (s.lane l).condition ≠ .faulted by simp [hc])])
    h.readbackRun (by simp [h.pause_eq_none (.inl (show (s.lane l).condition ≠ .running by simp [hc]))])

theorem keepsLane_wakeSettleComplete (h : LaneWf (s.lane l)) : NextIs (KeepsLane l) (execWakeSettleComplete l s) := by
  refine nextIs_inCondition fun hc => nextIs_ite (fun _ => .refused _) fun hd => .next ?_
  have ht : (s.lane l).transaction = none := h.idle (.inr (.inr (.inl hc)))
  refine RestWf.enterResume ?_ ?_ ?_ ?_
  · exact h.rest_onLine (f := fun x => x.reach (s.lane l).config.wakeSettle) ht (by simpa using hd) rfl rfl (h.runs.reach _)
  all_goals rw [State.lane_onLane_self]
  · exact h.pause_eq_none (.inl (by simp [hc]))
  · exact h.not_armed (by simp [hc])
  · exact h.readbackRun

/-- Leaving FAULTED for the resume condition (R129). -/
theorem keepsLane_leaveFaulted (h : LaneWf (s.lane l)) (hc : (s.lane l).condition = .faulted) : KeepsLane l (leaveFaulted l s) := by
  have ht : (s.lane l).transaction = none := h.idle (.inr (.inr (.inr hc)))
  have rest := h.rest ht (h.released ht (by simp [hc]))
  refine RestWf.enterResume ?_ ?_ ?_ ?_ <;> rw [State.lane_onLane_self]
  · exact { rest with runs := ⟨h.dominantRun, h.recessiveRun, h.waited⟩, accounts := { rest.accounts with } }
  · exact h.pause_eq_none (.inl (by simp [hc]))
  · exact h.readbackRun

theorem keepsLane_recoveryQuietComplete (h : LaneWf (s.lane l)) : NextIs (KeepsLane l) (execRecoveryQuietComplete l s) := by
  have quiet : KeepsLane l (s.onLine l fun x => x.reach recoveryQuiet) :=
    keepsLane_onLane (h.withRuns (h.runs.reach _) rfl rfl rfl rfl)
  refine nextIs_inCondition fun hc => nextIs_ite (fun _ => .next (keepsLane_leaveFaulted quiet ?_)) fun _ => .next quiet
  rw [State.onLine, State.lane_onLane_self]
  exact hc

/-- Every event of a lane keeps what its engine holds in each condition. -/
theorem keepsLane_of_exec {c : Instr} (hl : c.lane = some l) (h : LaneWf (s.lane l)) : NextIs (KeepsLane l) (exec c s) := by
  cases c <;> cases hl
  case gapWaitComplete => exact keepsLane_gapWaitComplete h
  case callComplete => exact nextIs_inPhase fun t ht hp => .next (keepsLane_completeCall h ht hp)
  case responseTimeout =>
    exact nextIs_inPhase fun t ht hp => .next (keepsLane_timeout h ht (by simp [hp]) (by simp [hp]))
  case tagCellReceived cell => exact keepsLane_receiveCell h cell fun t v u ha hu => hu.takeTag ha v
  case headerCellReceived cell => exact keepsLane_receiveCell h cell fun t v u ha hu => hu.takeHeader ha v
  case dataCellReceived cell => exact keepsLane_receiveCell h cell fun t v u ha hu => hu.takeData ha v
  case checkCellReceived cell => exact keepsLane_receiveCell h cell fun t v u ha hu => hu.takeCheck ha v
  case gapTimeout =>
    exact nextIs_inPhase fun t ht hp => nextIs_ite (fun _ => .refused _) fun _ =>
      .next (keepsLane_timeout h ht (by simp [hp]) (by simp [hp]))
  case pendingWindowEnd window => exact nextIs_inPhase fun t ht hp => .next (keepsLane_endWindow h ht hp _)
  case publishComplete => exact nextIs_inPhase fun t ht _ => .next (keepsLane_completePublish h ht)
  case readbackError ahead read =>
    show NextIs _ (execReadbackError l ahead read s)
    unfold execReadbackError
    split
    · exact .refused _
    · rename_i t ht
      simp only
      split
      · exact .refused _
      · exact nextIs_ite (fun _ => .next (keepsLane_failReadback h ht _)) fun _ => .refused _
  case stuckFault => exact keepsLane_raiseStuck h
  case pauseComplete => exact keepsLane_pauseComplete h
  case sleepReleaseComplete => exact keepsLane_sleepReleaseComplete h
  case sleepReleaseWake => exact nextIs_inReleaseWait fun hc ht => .next (keepsLane_objectToSleep h ht hc)
  case responderWake run =>
    exact nextIs_inCondition fun hc => nextIs_ite (fun _ => .refused _) fun _ => .next (keepsLane_endResponderRun h hc run)
  case wakePulseEnd => exact keepsLane_wakePulseEnd h
  case wakeSettleComplete => exact keepsLane_wakeSettleComplete h
  case recoveryQuietComplete => exact keepsLane_recoveryQuietComplete h
  case responseStartBit start =>
    show NextIs _ (execResponseStartBit l start s)
    unfold execResponseStartBit
    split
    · exact .refused _
    · rename_i t ht
      refine nextIs_ite (fun ha => nextIs_ite (fun _ => .next (keepsLane_startCell h ht ?_)) fun _ => .next h) fun _ => .refused _
      simp only [Lane.awaitsEdge, Bool.or_eq_true, Bool.and_eq_true, beq_iff_eq] at ha
      exact ha.imp_right And.left
  case dominantBitTime bit =>
    show NextIs _ (execDominantBitTime l bit s)
    unfold execDominantBitTime
    simp only
    split
    · exact keepsLane_inTransaction h ‹_› _
    · exact keepsLane_betweenTransactions h ‹_› _

end Sys2Proof.Machine
end

section
/-!
The bounds and the numbering of the Report Queue, and the bounds of the Host Link Interface, under each of their operations (R136, R138,
R143, R144, R147, R156, R159, R160, R167, R168).
-/

namespace Sys2Proof.Machine

open Sys2Proof

/-! ## The SLOT_UPDATE records of a list -/

/-- One SLOT_UPDATE a slot, each with its merged count in range (R138). -/
structure UpdatesWf (records : List Report) : Prop where
  distinct : (updateRefs records).Nodup
  merged : ∀ ref u, .slotUpdate ref u ∈ records → u.merged ≤ 255

theorem UpdatesWf.nil : UpdatesWf [] := ⟨List.nodup_nil, by simp⟩

/-- Where nothing merges, no pending SLOT_UPDATE is of the slot. -/
theorem not_mem_updateRefs_of_mergeUpdate {ref : SlotRef} {u : Update} {records : List Report}
    (h : mergeUpdate ref u records = none) : ref ∉ updateRefs records := by
  induction records with
  | nil => simp
  | cons r rest ih =>
    cases r with
    | slotUpdate ref' old =>
      simp only [mergeUpdate] at h
      split at h
      · cases h
      · rename_i hne
        rw [updateRefs_slotUpdate, List.mem_cons, not_or]
        exact ⟨fun he => hne he.symm, ih (Option.map_eq_none_iff.mp h)⟩
    | _ =>
      rw [updateRefs_of_ne (by simp)]
      exact ih (Option.map_eq_none_iff.mp h)

theorem UpdatesWf.merge {ref : SlotRef} {old new : Update} {before after : List Report}
    (h : UpdatesWf (before ++ .slotUpdate ref old :: after)) (hm : new.merged ≤ 255) :
    UpdatesWf (before ++ .slotUpdate ref new :: after) where
  distinct := by simpa using h.distinct
  merged ref' u' hu := by
    simp only [List.mem_append, List.mem_cons, Report.slotUpdate.injEq] at hu
    rcases hu with hu | ⟨-, rfl⟩ | hu
    · exact h.merged ref' u' (by simp [hu])
    · exact hm
    · exact h.merged ref' u' (by simp [hu])

theorem UpdatesWf.append {records : List Report} {r : Report} (h : UpdatesWf records) (hn : r.mergeInto records = none)
    (hm : ∀ ref u, r = .slotUpdate ref u → u.merged ≤ 255) : UpdatesWf (records ++ [r]) where
  distinct := by
    rw [updateRefs_append]
    cases r with
    | slotUpdate ref u =>
      refine List.nodup_append.mpr ⟨h.distinct, by simp, fun a ha b hb => ?_⟩
      obtain rfl : b = ref := by simpa using hb
      rintro rfl
      exact not_mem_updateRefs_of_mergeUpdate hn ha
    | _ => simpa [updateRefs] using h.distinct
  merged ref u hu := by
    rcases List.mem_append.mp hu with hu | hu
    · exact h.merged ref u hu
    · exact hm ref u (List.mem_singleton.mp hu).symm

/-- A record that is no SLOT_UPDATE joins a list. -/
theorem UpdatesWf.append_other {records : List Report} {r : Report} (h : UpdatesWf records) (hr : ∀ ref u, r ≠ .slotUpdate ref u) :
    UpdatesWf (records ++ [r]) := by
  refine h.append ?_ fun ref u he => absurd he (hr ref u)
  cases r with
  | slotUpdate ref u => exact absurd rfl (hr ref u)
  | _ => rfl

/-- The re-merge leaves one SLOT_UPDATE a slot, and no more records than there were (R147). -/
theorem remerge_wf {records : List Report} (h : ∀ ref u, .slotUpdate ref u ∈ records → u.merged ≤ 255) :
    UpdatesWf (remerge records) ∧ (remerge records).length ≤ records.length := by
  have kept : ∀ (rest kept : List Report), (∀ ref u, .slotUpdate ref u ∈ rest → u.merged ≤ 255) → UpdatesWf kept →
      UpdatesWf (rest.foldl (fun kept r => (r.mergeInto kept).getD (kept ++ [r])) kept)
        ∧ (rest.foldl (fun kept r => (r.mergeInto kept).getD (kept ++ [r])) kept).length ≤ kept.length + rest.length := by
    intro rest
    induction rest with
    | nil => exact fun kept _ hk => ⟨hk, Nat.le_refl _⟩
    | cons r rest ih =>
      intro kept hm hk
      have one : UpdatesWf ((r.mergeInto kept).getD (kept ++ [r])) ∧ ((r.mergeInto kept).getD (kept ++ [r])).length ≤ kept.length + 1 := by
        cases hr : r.mergeInto kept with
        | none => exact ⟨hk.append hr fun ref u he => hm ref u (by simp [he]), by simp⟩
        | some merged =>
          cases r with
          | slotUpdate ref u =>
            obtain ⟨before, old, after, rfl, -, rfl⟩ := mergeUpdate_eq_some hr
            exact ⟨hk.merge (Nat.min_le_right ..), by simp⟩
          | _ => simp [Report.mergeInto] at hr
      obtain ⟨hwf, hlen⟩ := ih _ (fun ref u hu => hm ref u (by simp [hu])) one.1
      refine ⟨hwf, ?_⟩
      rw [List.foldl_cons, List.length_cons]
      have := one.2
      omega
  simpa [remerge] using kept records [] h .nil

/-! ## The numbering -/

theorem nextNumber_range {n : Nat} (h : 1 ≤ n ∧ n ≤ 65535) : 1 ≤ nextNumber n ∧ nextNumber n ≤ 65535 := by
  unfold nextNumber; split <;> omega

/-- The number that follows the records in flight is in range, and so is each suffix of them numbered (R143). -/
theorem Consecutive.range {xs : List SentReport} {next : Nat} (h : Consecutive xs next) : 1 ≤ next ∧ next ≤ 65535 := by
  induction xs with
  | nil => exact h
  | cons r rest ih =>
    cases rest with
    | nil =>
      obtain ⟨h1, h2, rfl⟩ := h
      exact nextNumber_range ⟨h1, h2⟩
    | cons r' rest => exact ih h.2.2.2

theorem Consecutive.tail {r : SentReport} {xs : List SentReport} {next : Nat} (h : Consecutive (r :: xs) next) : Consecutive xs next := by
  cases xs with
  | nil => exact h.range
  | cons r' rest => exact h.2.2.2

theorem Consecutive.of_append {xs ys : List SentReport} {next : Nat} (h : Consecutive (xs ++ ys) next) : Consecutive ys next := by
  induction xs with
  | nil => exact h
  | cons r rest ih => exact ih h.tail

/-- A record sent takes the next number (R143). -/
theorem Consecutive.concat {xs : List SentReport} {next : Nat} (h : Consecutive xs next) (r : Report) :
    Consecutive (xs ++ [{ seq := next, report := r }]) (nextNumber next) := by
  induction xs with
  | nil => exact ⟨h.1, h.2, rfl⟩
  | cons x rest ih =>
    cases rest with
    | nil =>
      obtain ⟨h1, h2, rfl⟩ := h
      exact ⟨h1, h2, rfl, (nextNumber_range ⟨h1, h2⟩).1, (nextNumber_range ⟨h1, h2⟩).2, rfl⟩
    | cons x' rest => exact ⟨h.1, h.2.1, h.2.2.1, ih h.tail⟩

/-! ## The Report Queue -/

section
variable {q : ReportQueue} {credit next : Nat}

theorem QueueWf.unsentUpdates (h : QueueWf q credit next) : UpdatesWf q.unsent :=
  ⟨h.updates, fun ref u hu => h.merged ref u (List.mem_append_right _ hu)⟩

/-- The pending records may change, where they fit. -/
theorem QueueWf.withUnsent {records : List Report} (h : QueueWf q credit next) (hw : UpdatesWf records)
    (hlen : q.inFlight.length + records.length ≤ 48) : QueueWf { q with unsent := records } credit next :=
  { h with
    places := hlen
    updates := hw.distinct
    merged := fun ref u hu => (List.mem_append.mp hu).elim (fun hu => h.merged ref u (List.mem_append_left _ hu)) (hw.merged ref u) }

theorem QueueWf.handOver {r : Report} (h : QueueWf q credit next) (hr : r.Fresh) : QueueWf (q.handOver r) credit next := by
  rcases q.handOver_cases r with ⟨ref, u, before, old, after, rfl, hq, -, he⟩ | ⟨hn, hsize, he⟩ | ⟨-, -, he⟩ <;> rw [he]
  · have places := h.places
    have updates := h.unsentUpdates
    rw [hq] at updates places
    exact h.withUnsent (updates.merge (Nat.min_le_right ..)) (by simpa using places)
  · refine h.withUnsent (h.unsentUpdates.append hn fun ref u hu => by simp [hr ref u hu]) ?_
    simp only [ReportQueue.size] at hsize
    simp only [List.length_append, List.length_singleton]
    omega
  · exact { h with lost := bump_le .., kinds := fun h0 => by simp only [bump] at h0; omega }

theorem QueueWf.foldl_handOver {rs : List Report} (h : QueueWf q credit next) (hr : ∀ r ∈ rs, r.Fresh) :
    QueueWf (rs.foldl ReportQueue.handOver q) credit next := by
  induction rs generalizing q with
  | nil => exact h
  | cons r rs ih => exact ih (h.handOver (hr r (by simp))) fun r' hr' => hr r' (by simp [hr'])

/-- REPORTS_LOST takes a place that has come free (R141). -/
theorem QueueWf.reportLoss (h : QueueWf q credit next) (hlen : q.inFlight.length + q.unsent.length < 48) :
    QueueWf q.reportLoss credit next := by
  unfold ReportQueue.reportLoss
  split
  · exact h
  · have := h.withUnsent (h.unsentUpdates.append_other (r := .reportsLost q.lostCount q.lostKinds) nofun)
      (by simp only [List.length_append, List.length_singleton]; omega)
    exact { this with lost := Nat.zero_le _, kinds := fun _ => rfl }

/-- An acknowledgement takes records from the front of what is in flight (R144). -/
theorem QueueWf.acknowledge {q' : ReportQueue} {seq removed : Nat} (h : QueueWf q credit next)
    (ha : q.acknowledge seq = some (removed, q')) : QueueWf q' credit next := by
  unfold ReportQueue.acknowledge at ha
  split at ha
  · cases ha
  · rename_i r rest hd
    obtain ⟨-, rfl⟩ := Prod.mk.inj (Option.some.inj ha)
    obtain ⟨before, hb⟩ := List.dropWhile_suffix (fun r : SentReport => r.seq != seq) (l := q.inFlight)
    rw [hd] at hb
    have places := h.places
    have creditBound := h.credit
    have consecutive := h.consecutive
    rw [← hb] at places creditBound consecutive
    simp only [List.length_append, List.length_cons] at places creditBound
    have wf : QueueWf { q with inFlight := rest } credit next :=
      { h with
        places := by simp only; omega
        credit := by simp only; omega
        consecutive := consecutive.of_append.tail
        merged := fun ref u hu => h.merged ref u (by
          rw [← hb]
          simp only [List.map_append, List.map_cons, List.mem_append, List.mem_cons] at hu ⊢
          tauto) }
    exact wf.reportLoss (by simp only; omega)

/-- LINK_RESET returns everything in flight to pending, and merges it again (R146, R147). -/
theorem QueueWf.linkReset (h : QueueWf q credit next) : QueueWf q.linkReset 0 1 := by
  obtain ⟨updates, hlen⟩ := remerge_wf h.merged
  have places := h.places
  simp only [List.length_append, List.length_map] at hlen
  have wf : QueueWf { q with inFlight := [], unsent := remerge (q.inFlight.map SentReport.report ++ q.unsent) } 0 1 :=
    { h with
      places := by simp only [List.length_nil]; omega
      credit := Nat.zero_le _
      consecutive := ⟨Nat.le_refl 1, by decide⟩
      updates := updates.distinct
      merged := fun ref u hu => updates.merged ref u (by simpa using hu) }
  unfold ReportQueue.linkReset
  simp only
  split
  · rename_i hlt
    simp only [List.length_append, List.length_map] at hlt
    exact wf.reportLoss (by simp only [List.length_nil]; omega)
  · exact wf

/-- The oldest pending record is sent, and takes one of the credit (R143). -/
theorem QueueWf.send {r : Report} {rest : List Report} (h : QueueWf q credit next) (hu : q.unsent = r :: rest) (hc : credit ≠ 0) :
    QueueWf { q with inFlight := q.inFlight ++ [{ seq := next, report := r }], unsent := rest } (credit - 1) (nextNumber next) := by
  have places := h.places
  have creditBound := h.credit
  have updates := h.updates
  have merged := h.merged
  rw [hu] at places updates merged
  simp only [List.length_cons] at places
  refine { h with places := ?_, credit := ?_, consecutive := h.consecutive.concat r, updates := ?_, merged := fun ref u hm => ?_ }
  · simp only [List.length_append, List.length_singleton]; omega
  · simp only [List.length_append, List.length_singleton]; omega
  · have split : updateRefs (r :: rest) = updateRefs [r] ++ updateRefs rest := updateRefs_append [r] rest
    exact (List.nodup_append.mp (split ▸ updates)).2.1
  · refine merged ref u ?_
    simp only [List.map_append, List.map_cons, List.map_nil, List.mem_append, List.mem_cons] at hm ⊢
    tauto

/-- The credit may be set to what the records in flight leave of 16 (R142). -/
theorem QueueWf.withCredit {n : Nat} (h : QueueWf q credit next) (hn : n ≤ 16 - q.inFlight.length) : QueueWf q n next :=
  { h with credit := by have := h.credit; omega }

end

/-! ## The Host Link Interface -/

section
variable {h : Hli}

/-- The cache keeps one entry a tag and at most 8 (R160). -/
theorem insertCache_wf {cache : List CacheEntry} {e : CacheEntry} (hlen : cache.length ≤ 8)
    (htags : (cache.map fun e => e.reply.tag).Nodup) :
    (insertCache cache e).length ≤ 8 ∧ ((insertCache cache e).map fun e => e.reply.tag).Nodup
      ∧ ∀ c ∈ insertCache cache e, c ∈ cache ∨ c = e := by
  have joined : ∀ kept : List CacheEntry, kept.Sublist cache → kept.length < 8 → (∀ c ∈ kept, c.reply.tag ≠ e.reply.tag) →
      (kept ++ [e]).length ≤ 8 ∧ ((kept ++ [e]).map fun e => e.reply.tag).Nodup ∧ ∀ c ∈ kept ++ [e], c ∈ cache ∨ c = e := by
    intro kept hsub hlt hne
    refine ⟨by simpa using hlt, ?_, fun c hc => ?_⟩
    · rw [List.map_append, List.nodup_append]
      refine ⟨htags.sublist (hsub.map _), by simp, ?_⟩
      simpa using hne
    · simp only [List.mem_append, List.mem_singleton] at hc
      exact hc.imp_left fun hc => hsub.subset hc
  unfold insertCache
  split
  · rename_i hany
    obtain ⟨c, hc, hct⟩ := List.any_eq_true.mp hany
    refine joined _ List.filter_sublist ?_ fun c hc => by simpa using (List.mem_filter.mp hc).2
    exact (List.length_filter_lt_length_iff_exists.mpr ⟨c, hc, by simpa using hct⟩).trans_le hlen
  · rename_i hany
    have hne : ∀ c ∈ cache, c.reply.tag ≠ e.reply.tag := by simpa using hany
    split
    · rename_i hlt
      exact joined cache (List.Sublist.refl _) hlt hne
    · exact joined _ (List.drop_sublist 1 cache) (by rw [List.length_drop]; omega) fun c hc => hne c (List.mem_of_mem_drop hc)

theorem LinkWf.popBuffer (w : LinkWf h) : LinkWf h.popBuffer :=
  { w with buffer := by have := w.buffer; simp only [Hli.popBuffer, List.length_tail]; omega }

theorem LinkWf.queueReply (w : LinkWf h) (hr : h.replies.length < 4) (r : Reply) : LinkWf (h.queueReply r) :=
  { w with replies := by simpa [Hli.queueReply] using hr }

theorem LinkWf.remember {f : Frame} {r : Reply} (w : LinkWf h) (hr : r.tag = f.tag) : LinkWf (h.remember f r) := by
  unfold Hli.remember
  split
  · exact w
  · rename_i hn
    obtain ⟨hlen, htags, hmem⟩ := insertCache_wf (e := { bodyCrc := crc16 f.body, reply := r }) w.cache w.tags
    refine { w with cache := hlen, tags := htags, tagged := fun c hc => ?_ }
    rcases hmem c hc with hc | rfl
    · exact w.tagged c hc
    · exact fun h0 => hn (.inl (hr.symm.trans h0))

theorem LinkWf.receive (w : LinkWf h) (f : Frame) : LinkWf (h.receive f) := by
  obtain ⟨hf, hc, -, hd⟩ := w.counts
  unfold Hli.receive
  split
  · exact { w with buffer := by simpa using ‹h.buffer.length < 2› }
  · exact { w with counts := ⟨hf, hc, bump_le .., hd⟩ }

theorem LinkWf.countFraming (w : LinkWf h) : LinkWf (countFraming h) := by
  obtain ⟨-, hc, ho, hd⟩ := w.counts
  exact { w with counts := ⟨bump_le .., hc, ho, hd⟩ }

/-- The silence timer runs while the limit is above 0 and the part is not HOST_SILENT (R168). -/
theorem restartedTimer_iff (limit : Byte) (hostSilent : Bool) :
    restartedTimer limit hostSilent ≠ .stopped ↔ limit ≠ 0 ∧ hostSilent = false := by
  unfold restartedTimer
  split
  · rename_i h
    simpa using h
  · rename_i h
    simpa using h

end

end Sys2Proof.Machine
end

section
/-!
What every step keeps: the bounds of the Report Queue and of the Host Link Interface, and what every lane engine holds; request by request,
and event by event.
-/

namespace Sys2Proof.Machine

open Sys2Proof

variable {l : LaneId} {s t u : State}

/-! ## The two invariants -/

/-- The Report Queue and the Host Link Interface hold within their bounds. -/
structure LinkOk (s : State) : Prop where
  queue : QueueWf s.reports s.hli.credit s.hli.nextReportSeq
  link : LinkWf s.hli

/-- A change of state keeps both invariants. -/
structure Sound (s t : State) : Prop where
  link : LinkOk s → LinkOk t
  lanes : LanesWf s → LanesWf t

/-- What the entry of a request does keeps both invariants, and leaves the reply queue to the handler. -/
structure Keeps (s t : State) : Prop extends Sound s t where
  replies : t.hli.replies = s.hli.replies

theorem Keeps.refl (s : State) : Keeps s s := ⟨⟨id, id⟩, rfl⟩

theorem Keeps.trans (h : Keeps s t) (k : Keeps t u) : Keeps s u :=
  ⟨⟨fun w => k.link (h.link w), fun w => k.lanes (h.lanes w)⟩, k.replies.trans h.replies⟩

theorem LanesWf.of_lanes (h : LanesWf s) (hl : t.lanes = s.lanes) : LanesWf t := fun l => by
  have : t.lane l = s.lane l := by simp only [State.lane, hl]
  rw [this]
  exact h l

/-- A change of the Slot Table, the Route Table and the handles alone. -/
theorem Keeps.of_tables (hl : t.lanes = s.lanes) (hr : t.reports = s.reports) (hh : t.hli = s.hli) : Keeps s t where
  link h := ⟨by rw [hr, hh]; exact h.queue, hh ▸ h.link⟩
  lanes h := h.of_lanes hl
  replies := by rw [hh]

/-- A change of the Host Link Interface and the Report Queue that leaves the lane engines and the reply queue alone. -/
theorem Keeps.of_link (hl : t.lanes = s.lanes) (hr : t.hli.replies = s.hli.replies) (h : LinkOk s → LinkOk t) : Keeps s t :=
  ⟨⟨h, fun w => w.of_lanes hl⟩, hr⟩

/-! ## A change of one lane -/

/-- One lane engine may have changed in any way, and fresh reports have been handed over; no other lane and nothing of the host link has
changed. -/
structure LaneOnly (l : LaneId) (s t : State) : Prop where
  hli : t.hli = s.hli
  reports : ∃ rs : List Report, (∀ r ∈ rs, r.Fresh) ∧ t.reports = rs.foldl ReportQueue.handOver s.reports
  lanes : ∀ m, m ≠ l → t.lane m = s.lane m

theorem LaneMoves.laneOnly (h : LaneMoves l s t) : LaneOnly l s t := ⟨h.onlyLane.hli, h.reports, h.onlyLane.lanes⟩

theorem LaneOnly.onLane (l : LaneId) (s : State) (f : Lane → Lane) : LaneOnly l s (s.onLane l f) :=
  ⟨rfl, ⟨[], by simp, rfl⟩, fun _ hm => s.lane_onLane_of_ne f hm⟩

theorem LaneOnly.trans (h : LaneOnly l s t) (k : LaneOnly l t u) : LaneOnly l s u where
  hli := k.hli.trans h.hli
  reports := by
    obtain ⟨a, ha, h⟩ := h.reports
    obtain ⟨b, hb, k⟩ := k.reports
    exact ⟨a ++ b, by simpa [or_imp, forall_and] using ⟨ha, hb⟩, by rw [k, h, List.foldl_append]⟩
  lanes m hm := (k.lanes m hm).trans (h.lanes m hm)

theorem LinkOk.laneOnly (w : LinkOk s) (h : LaneOnly l s t) : LinkOk t := by
  obtain ⟨rs, hrs, hr⟩ := h.reports
  exact ⟨by rw [hr, h.hli]; exact w.queue.foldl_handOver hrs, h.hli ▸ w.link⟩

/-- A change of one lane keeps the invariants where that lane does. -/
theorem Keeps.of_laneOnly (h : LaneOnly l s t) (hl : LaneWf (s.lane l) → KeepsLane l t) : Keeps s t where
  link w := w.laneOnly h
  lanes w m := by
    by_cases hm : m = l
    · subst hm; exact hl (w m)
    · rw [h.lanes m hm]; exact w m
  replies := by rw [h.hli]

theorem Keeps.of_moves (h : LaneMoves l s t) (hl : LaneWf (s.lane l) → KeepsLane l t) : Keeps s t := .of_laneOnly h.laneOnly hl

theorem Keeps.onLane {f : Lane → Lane} (hl : LaneWf (s.lane l) → LaneWf (f (s.lane l))) : Keeps s (s.onLane l f) :=
  .of_laneOnly (.onLane l s f) fun w => keepsLane_onLane (hl w)

/-! ## The shapes that requests share -/

/-- A request and its answer keep the invariants. -/
def Kept (s : State) (a : State × Answer) : Prop := Keeps s a.1

theorem kept_accept {fields : List Byte} (h : Keeps s t) : Kept s (accept fields t) := h
theorem kept_refuse (status : Status) (s : State) : Kept s (refuse status s) := .refl s

theorem kept_ite {p : Prop} [Decidable p] {a b : State × Answer} (ha : p → Kept s a) (hb : ¬ p → Kept s b) :
    Kept s (if p then a else b) := by
  split
  · exact ha ‹_›
  · exact hb ‹_›

theorem kept_withLane {b : Byte} {k : LaneId → State × Answer} (h : ∀ l, Kept s (k l)) : Kept s (withLane b s k) := by
  unfold withLane
  split
  · exact kept_refuse ..
  · exact h _

theorem kept_withUserSlot {b : Byte} {k : SlotId → State × Answer} (h : ∀ l, Kept s (k l)) : Kept s (withUserSlot b s k) := by
  unfold withUserSlot
  split
  · exact kept_refuse ..
  · exact h _

theorem kept_laneAlone {k : LaneId → State → State × Answer} (h : ∀ l, Kept s (k l s)) (body : List Byte) :
    Kept s (laneAlone k body s) := by
  unfold laneAlone
  split
  · exact kept_withLane h
  · exact kept_refuse ..

theorem kept_checkLength {code : Byte} {act : List Byte → State → State × Answer} (h : ∀ body, Kept s (act body s)) (body : List Byte) :
    Kept s (checkLength code act body s) := kept_ite (fun _ => h body) fun _ => kept_refuse ..

/-! ## Lane requests -/

theorem inRange_eq_some {b : Byte} {low high n : Nat} (h : inRange b low high = some n) : low ≤ n ∧ n ≤ high := by
  unfold inRange at h
  split at h
  · cases h; assumption
  · cases h

theorem laneConfigOf_wf {fields : List Byte} {config : LaneConfig} (h : laneConfigOf fields = some config) : ConfigWf config := by
  unfold laneConfigOf at h
  split at h
  · simp only [Option.bind_eq_bind, Option.bind_eq_some_iff, Option.pure_def, Option.some.injEq] at h
    obtain ⟨_, -, _, -, timeout, ht, gap, hg, turn, hta, probe, hp, _, -, pulse, hpu, settle, hs, rfl⟩ := h
    exact ⟨inRange_eq_some ht, inRange_eq_some hg, inRange_eq_some hta, inRange_eq_some hp, inRange_eq_some hpu, inRange_eq_some hs⟩
  · cases h

theorem kept_configLane (body : List Byte) (s : State) : Kept s (configLane body s) := by
  unfold configLane
  split
  · refine kept_withLane fun l => ?_
    split
    · exact kept_refuse ..
    · rename_i config hc
      refine kept_ite (fun _ => kept_accept (.onLane fun h => ?_)) fun _ => kept_refuse ..
      have runs := h.withRuns (x := { (s.lane l).line with dominantRun := 0, recessiveRun := 0 }) ⟨Nat.zero_le _, Nat.zero_le _, h.waited⟩
        rfl rfl rfl rfl
      exact { runs with config := laneConfigOf_wf hc }
  · exact kept_refuse ..

theorem keeps_setResume (l : LaneId) (r : Resume) (s : State) : Keeps s (setResume l r s) := .onLane fun h => { h with }

/-- Recovery is armed in FAULTED alone, and may lead out of it at once (R127, R130). -/
theorem keeps_requestRecovery (l : LaneId) (r : Resume) (s : State) (hc : (s.lane l).condition = .faulted) :
    Keeps s (requestRecovery l r s) := by
  have hc' : ((setResume l r s).lane l).condition = .faulted := by rw [setResume, State.lane_onLane_self]; exact hc
  have armed : Keeps (setResume l r s) ((setResume l r s).onLane l fun L => { L with recoveryArmed := true }) :=
    .onLane fun h => { h with armed := fun _ => hc' }
  refine (keeps_setResume l r s).trans ?_
  unfold requestRecovery
  simp only
  split
  · exact .refl _
  · split
    · refine armed.trans (.of_moves (.leaveFaulted ..) fun h => keepsLane_leaveFaulted h ?_)
      rw [State.lane_onLane_self]
      exact hc'
    · exact armed

theorem kept_startLane (l : LaneId) (s : State) : Kept s (startLane l s) := by
  unfold startLane
  split
  · rename_i hc
    refine kept_accept (.of_moves (.enterRunning ..) fun h => ?_)
    have ht := h.idle (.inl hc)
    exact (h.rest ht (h.released ht (by simp [hc]))).enterRunning (h.not_armed (by simp [hc])) h.readbackRun
  · exact kept_refuse ..
  · exact kept_refuse ..
  · exact kept_refuse ..
  · exact kept_accept (keeps_setResume ..)
  · exact kept_accept (keeps_setResume ..)
  · exact kept_accept (keeps_requestRecovery _ _ _ ‹_›)

theorem State.transaction_of_not_busy (h : ¬ s.busy l = true) : (s.lane l).transaction = none := by simpa [State.busy] using h

/-- A transaction record in which follow-ups are forbidden (R61). -/
theorem TransactionWf.forbid {t : Transaction} (h : TransactionWf t) : TransactionWf { t with followUpsForbidden := true } := { h with }

/-- A RUNNING lane with a transaction in progress may enter HALTING or SLEEP_PENDING, with follow-ups forbidden and its round abandoned or
kept (R61, R83, R117, R118). -/
theorem LaneWf.draining {L : Lane} {t : Transaction} (h : LaneWf L) (ht : L.transaction = some t) (hr : L.condition = .running)
    {c : Condition} (hc : c = .halting ∨ c = .sleepPending) {resume : Resume} {round : RoundState} (hp : round.pause = none)
    (hpos : round.position ≤ L.schedules.active.length) (hst : round.streak ≤ 2) :
    LaneWf
      { L with condition := c, resume, transaction := some { t with followUpsForbidden := true }, round } := by
  have call := h.call ht
  have line : CallWf { t with followUpsForbidden := true } L.line := { call with }
  exact
    { h with
      idle := fun hi => by rcases hc with rfl | rfl <;> simp at hi
      halting := fun _ => rfl
      queueEmpty := fun hq => by rcases hc with rfl | rfl <;> simp at hq
      transaction := by rintro _ ⟨⟩; exact (h.transaction t ht).forbid
      sleepCall := by
        rintro _ ⟨⟩ hs
        simpa [hr] using h.sleepCall t ht hs
      forbidden := by rintro _ _ ⟨⟩; exact .inr rfl
      sending := by rintro _ ⟨⟩; exact line.sending
      sent := by rintro _ ⟨⟩; exact line.sent
      receiving := fun bits hb => by
        obtain ⟨hlen, hph, hpos⟩ := line.receiving bits hb
        exact ⟨hlen, _, rfl, hph, hpos⟩
      firstCell := by rintro _ ⟨⟩; exact line.firstCell
      pulse := nofun
      position := by rw [h.position, ht]; rfl
      armed := fun ha => by simpa [hr] using h.armed ha
      pause := fun n hn => by simp [hp] at hn
      roundPosition := hpos
      streak := hst }

theorem kept_haltLane (l : LaneId) (s : State) : Kept s (haltLane l s) := by
  unfold haltLane
  split
  · rename_i hc
    refine kept_ite (fun hb => kept_accept ?_) fun hb => kept_accept ?_
    · obtain ⟨t, ht⟩ := Option.isSome_iff_exists.mp hb
      refine .of_laneOnly ((LaneOnly.onLane l s _).trans (.onLane l _ _)) fun h => keepsLane_onLane ?_
      rw [forbidFollowUps, State.lane_onLane_self, ht]
      exact h.draining ht hc (.inl rfl) (h.pause_eq_none (.inr (by simp [ht]))) h.roundPosition h.streak
    · refine .of_moves ((LaneMoves.resetRound ..).trans (.enterHalted ..)) fun h => ?_
      have ht := State.transaction_of_not_busy hb
      have rest := h.rest ht (h.released ht (by simp [hc]))
      have reset : (resetRound l s).lane l = { s.lane l with round := (s.lane l).round.abandoned } := s.lane_onLane_self ..
      refine RestWf.enterHalted ?_ ?_ ?_ ?_ <;> rw [reset]
      · exact { rest with accounts := { rest.accounts with roundPosition := Nat.zero_le _, streak := Nat.zero_le _ } }
      · rfl
      · exact h.not_armed (by simp [hc])
      · exact h.readbackRun
  · exact kept_refuse ..
  · exact kept_refuse ..
  · exact kept_refuse ..
  · exact kept_accept (keeps_setResume ..)
  · exact kept_accept (keeps_setResume ..)
  · exact kept_accept (keeps_requestRecovery _ _ _ ‹_›)

/-- A lane at rest enters SLEEP_PENDING, and its sleep call begins at once (R118). -/
theorem keepsLane_enterSleepPending (resume : Resume) (h : RestWf (s.lane l)) (hp : (s.lane l).round.pause = none)
    (ha : (s.lane l).recoveryArmed = false) (hr : (s.lane l).readbackRun ≤ 2) : KeepsLane l (enterSleepPending l resume s) := by
  have lane : (changeCondition l .sleepPending .request (setResume l resume s)).lane l
      = { s.lane l with condition := .sleepPending, resume } := by
    rw [changeCondition, State.lane_report, State.lane_onLane_self, setResume, State.lane_onLane_self]
  have rest : RestWf { s.lane l with condition := .sleepPending, resume } := { h with accounts := { h.accounts with } }
  have wf : LaneWf { s.lane l with condition := .sleepPending, resume } :=
    rest.laneWf (by simp) (by simp) (by simp [ha]) hr (by simp [hp])
  unfold enterSleepPending
  simp only
  rw [if_neg (by simp [State.busy, lane, h.transaction]), KeepsLane, beginSleepCall, State.lane_begin, lane]
  exact wf.begun_sleepCall h.transaction rfl _

theorem laneMoves_enterSleepPending (l : LaneId) (resume : Resume) (s : State) : LaneMoves l s (enterSleepPending l resume s) :=
  ((LaneMoves.onLane s _ rfl rfl).trans (.changeCondition ..)).trans (.ite (.refl _) (.begin ..))

theorem kept_sleepLane (l : LaneId) (s : State) : Kept s (sleepLane l s) := by
  unfold sleepLane
  split
  · rename_i hc
    refine kept_accept (.of_moves (laneMoves_enterSleepPending ..) fun h => ?_)
    have ht := h.idle (.inl hc)
    exact keepsLane_enterSleepPending _ (h.rest ht (h.released ht (by simp [hc]))) (h.pause_eq_none (.inl (by simp [hc])))
      (h.not_armed (by simp [hc])) h.readbackRun
  · rename_i hc
    have forbidden : LaneMoves l s (forbidFollowUps l s) := .onLane s _ rfl rfl
    refine kept_accept (.of_moves ((forbidden.trans (.resetRound ..)).trans (laneMoves_enterSleepPending ..)) fun h => ?_)
    have lane : (resetRound l (forbidFollowUps l s)).lane l =
        { s.lane l with
          transaction := (s.lane l).transaction.map fun t => { t with followUpsForbidden := true }
          round := (s.lane l).round.abandoned } := by
      rw [resetRound, State.lane_onLane_self, forbidFollowUps, State.lane_onLane_self]; rfl
    cases ht : (s.lane l).transaction with
    | none =>
      have rest := h.rest ht (h.released ht (by simp [hc]))
      refine keepsLane_enterSleepPending _ ?_ ?_ ?_ ?_ <;> rw [lane]
      · exact
          { rest with
            transaction := by simp [ht]
            accounts := { rest.accounts with roundPosition := Nat.zero_le _, streak := Nat.zero_le _ } }
      · rfl
      · exact h.not_armed (by simp [hc])
      · exact h.readbackRun
    | some t =>
      have pending : (changeCondition l .sleepPending .request (setResume l .running (resetRound l (forbidFollowUps l s)))).lane l =
          { s.lane l with
            condition := .sleepPending, resume := .running, transaction := some { t with followUpsForbidden := true }
            round := (s.lane l).round.abandoned } := by
        rw [changeCondition, State.lane_report, State.lane_onLane_self, setResume, State.lane_onLane_self, lane, ht]; rfl
      unfold enterSleepPending
      simp only
      rw [if_pos (by simp [State.busy, pending]), KeepsLane, pending]
      exact h.draining ht hc (.inr rfl) rfl (Nat.zero_le _) (Nat.zero_le _)
  all_goals exact kept_refuse ..

/-- The wake pulse is driven in WAKING (R122). -/
theorem kept_wakeLane (l : LaneId) (s : State) : Kept s (wakeLane l s) := by
  unfold wakeLane
  split
  · rename_i hc
    refine kept_accept (.of_moves ((LaneMoves.onLane s _ rfl rfl).trans (.changeCondition ..)) fun h => ?_)
    have ht := h.idle (.inr (.inl hc))
    have lane : (enterWaking l .request (s.onLane l fun L => L.onLine LineState.startDriving)).lane l
        = { s.lane l with condition := .waking, line := (s.lane l).line.startDriving } := by
      rw [enterWaking, changeCondition, State.lane_report, State.lane_onLane_self, State.lane_onLane_self]; rfl
    rw [KeepsLane, lane]
    exact
      { h with
        idle := fun _ => ht
        halting := by simp
        queueEmpty := by simp
        sleepCall := fun t h' => by simp [ht] at h'
        forbidden := by simp
        sending := fun t h' => by simp [ht] at h'
        sent := fun t h' => by simp [ht] at h'
        pulse := fun _ _ => rfl
        armed := fun ha => by simpa [hc] using h.armed ha
        dominantRun := Nat.zero_le _
        recessiveRun := Nat.zero_le _
        waited := Nat.zero_le _
        pause := fun n hn => by simpa [hc] using (h.pause n hn).2.1 }
  all_goals exact kept_refuse ..

theorem kept_readLaneStatus (body : List Byte) (s : State) : Kept s (readLaneStatus body s) := by
  unfold readLaneStatus
  split
  · refine kept_withLane fun l => ?_
    split
    · exact kept_refuse ..
    · refine kept_accept ?_
      split
      · exact .onLane fun h => { h with counts := by simp }
      · exact .refl s
  · exact kept_refuse ..

theorem kept_clearCapture (l : LaneId) (s : State) : Kept s (clearCapture l s) :=
  kept_accept (.onLane fun h => { h with capture := nofun, faultsSince := by simp })

end Sys2Proof.Machine
end

section
/-!
What every step keeps, continued: the requests about schedules, one-shots, slots, routes and reports, and the events of the part; and the
two statements about every step.
-/

namespace Sys2Proof.Machine

open Sys2Proof

variable {l : LaneId} {s t u : State}

/-! ## Schedule requests -/

/-- A change of the builder and the staged schedule of a lane, which no lane condition restricts. -/
theorem keeps_onSchedules {f : Schedules → Schedules} (hf : (f (s.lane l).schedules).active = (s.lane l).schedules.active) :
    Keeps s (s.onSchedules l f) :=
  .onLane fun h =>
    { h with
      pause := fun n hn => by simp only [hf]; exact h.pause n hn
      roundPosition := by simp only [hf]; exact h.roundPosition }

theorem kept_schedOpen (body : List Byte) (s : State) : Kept s (schedOpen body s) := by
  unfold schedOpen
  split
  · exact kept_withLane fun l => kept_accept (keeps_onSchedules rfl)
  · exact kept_refuse ..

theorem kept_schedAdd (body : List Byte) (s : State) : Kept s (schedAdd body s) := by
  unfold schedAdd
  split
  · refine kept_withLane fun l => ?_
    split
    · exact kept_refuse ..
    · split
      · exact kept_refuse ..
      · exact kept_ite (fun _ => kept_accept (keeps_onSchedules rfl)) fun _ => kept_refuse ..
  · exact kept_refuse ..

theorem kept_schedDiscard (body : List Byte) (s : State) : Kept s (schedDiscard body s) := by
  unfold schedDiscard
  split
  · refine kept_withLane fun l => ?_
    split
    · exact kept_refuse ..
    · exact kept_accept (keeps_onSchedules rfl)
  · exact kept_refuse ..

/-- Where a commit swaps at once, no pause runs and no transaction is in progress (R82, R84). -/
theorem LaneWf.of_swapsAtOnce {L : Lane} (h : LaneWf L) (hs : L.swapsAtOnce = true) : L.round.pause = none ∧ L.transaction = none := by
  simp only [Lane.swapsAtOnce, Bool.or_eq_true, Bool.and_eq_true, beq_iff_eq, List.isEmpty_iff, Option.isNone_iff_eq_none] at hs
  rcases hs with hc | ⟨⟨-, ha⟩, ht⟩
  · exact ⟨h.pause_eq_none (.inl (by simp [hc])), h.idle (.inl hc)⟩
  · refine ⟨?_, ht⟩
    cases hp : L.round.pause with
    | none => rfl
    | some n => exact absurd ha (h.pause n hp).2.2.2

theorem kept_schedCommit (body : List Byte) (s : State) : Kept s (schedCommit body s) := by
  unfold schedCommit
  split
  · refine kept_withLane fun l => ?_
    split
    · exact kept_refuse ..
    · rename_i entries _
      have staged : Keeps s (s.onSchedules l fun x => { x with builder := none, staged := some entries }) := keeps_onSchedules rfl
      have lane : (s.onSchedules l fun x => { x with builder := none, staged := some entries }).lane l
          = { s.lane l with schedules := { (s.lane l).schedules with builder := none, staged := some entries } } :=
        s.lane_onLane_self l fun L => { L with schedules := { L.schedules with builder := none, staged := some entries } }
      refine kept_ite (fun hs => kept_accept (staged.trans ?_)) fun _ => kept_accept staged
      generalize s.onSchedules l (fun x => { x with builder := none, staged := some entries }) = u at lane
      refine .of_moves ((LaneMoves.swapStaged l u).trans (.ite (.choose ..) (.refl _))) fun h => ?_
      have hs : (u.lane l).swapsAtOnce = true := by rw [lane]; exact hs
      obtain ⟨hp, ht⟩ := h.of_swapsAtOnce hs
      have swapped := h.afterSwap hp
      rw [← State.lane_swapStaged] at swapped
      split
      · rename_i hc
        refine ChoosingWf.choose ⟨swapped, ?_, ?_⟩ <;> rw [State.lane_swapStaged]
        · exact ht
        · simp only [Lane.afterSwap, lane]; exact hc
      · exact swapped
  · exact kept_refuse ..

theorem kept_readSchedule (body : List Byte) (s : State) : Kept s (readSchedule body s) := by
  unfold readSchedule
  split
  · refine kept_withLane fun l => ?_
    split
    · exact kept_accept (.refl s)
    · exact kept_refuse ..
  · exact kept_refuse ..

/-! ## One-shot requests -/

/-- The one-shot queue of a lane may change within its bound, where its condition takes one-shots or the queue shrinks (R92, R101). -/
theorem LaneWf.withOneShots {L : Lane} {q : List OneShot} (h : LaneWf L) (hlen : q.length ≤ 8)
    (hq : L.condition = .sleeping ∨ L.condition = .faulted → q = []) : LaneWf { L with oneShots := q } :=
  { h with queue := hlen, queueEmpty := hq }

theorem kept_queueOneShot (k : SlotId) (kind : OneShotKind) (data : Option (List Byte)) (hlen : (s.lane l).oneShots.length < 8)
    (hc : (s.lane l).condition.takesOneShots = true) : Kept s (queueOneShot l k kind data s) := by
  have queued : ∀ x : OneShot, LaneWf (s.lane l) → LaneWf { s.lane l with oneShots := (s.lane l).oneShots ++ [x] } := fun x h =>
    h.withOneShots (by simpa using hlen) fun hq => by rcases hq with hq | hq <;> simp [hq, Condition.takesOneShots] at hc
  unfold queueOneShot
  refine kept_accept (Keeps.trans (t := { s with nextHandle := nextNumber (freeHandle s.handles s.nextHandle) })
    (.of_tables rfl rfl rfl) ?_)
  split
  · rename_i hr
    refine .of_laneOnly ((LaneOnly.onLane l _ _).trans (LaneMoves.choose ..).laneOnly) fun h => ChoosingWf.choose ?_
    rw [State.lane_onLane_self]
    exact ⟨queued _ h, State.transaction_of_not_busy (s := s) (by simpa using hr.2), hr.1⟩
  · exact .onLane (queued _)

theorem kept_sendOnce (body : List Byte) (s : State) : Kept s (sendOnce body s) := by
  unfold sendOnce
  split
  · refine kept_withLane fun l => kept_withUserSlot fun k => kept_ite (fun _ => kept_refuse ..) fun _ =>
      kept_ite (fun _ => kept_refuse ..) fun hc => ?_
    split
    · exact kept_refuse ..
    · exact kept_ite (fun hlen => kept_queueOneShot k _ _ hlen (by simpa using hc)) fun _ => kept_refuse ..
  · exact kept_refuse ..

theorem kept_withdraw (body : List Byte) (s : State) : Kept s (withdraw body s) := by
  unfold withdraw
  split
  · simp only
    split
    · rename_i l _
      refine kept_accept (.of_moves ((LaneMoves.onLane s _ rfl rfl).trans (.report _ (fresh_oneShotDone _ _ _ _ _))) fun h => ?_)
      rw [KeepsLane, State.lane_report, State.lane_onLane_self]
      refine h.withOneShots (List.eraseP_sublist.length_le.trans h.queue) fun hq => ?_
      rw [h.queueEmpty hq]; rfl
    · exact kept_ite (fun _ => kept_refuse ..) fun _ => kept_refuse ..
  · exact kept_refuse ..

/-! ## Slot and route requests -/

theorem keeps_setSlot (r : SlotRef) (x : SlotRecord) : Keeps s (s.setSlot r x) := .of_tables rfl rfl rfl

theorem kept_withHostPublished {r : SlotRef} {k : PublishedRec → State × Answer} (h : ∀ p, Kept s (k p)) :
    Kept s (withHostPublished r s k) := by
  unfold withHostPublished
  split
  · exact kept_refuse ..
  · exact kept_refuse ..
  · exact kept_refuse ..
  · exact kept_ite (fun _ => kept_refuse ..) fun _ => h _

theorem kept_defineSlot (body : List Byte) (s : State) : Kept s (defineSlot body s) := by
  unfold defineSlot
  split
  · refine kept_withLane fun l => kept_withUserSlot fun k => ?_
    split
    · exact kept_refuse ..
    · exact kept_ite (fun _ => kept_refuse ..) fun _ => kept_accept (keeps_setSlot ..)
  · exact kept_refuse ..

theorem kept_clearSlot (body : List Byte) (s : State) : Kept s (clearSlot body s) := by
  unfold clearSlot
  split
  · exact kept_withLane fun l => kept_withUserSlot fun k =>
      kept_ite (fun _ => kept_refuse ..) fun _ => kept_accept (keeps_setSlot ..)
  · exact kept_refuse ..

theorem kept_writeSlot (body : List Byte) (s : State) : Kept s (writeSlot body s) := by
  unfold writeSlot
  split
  · exact kept_withLane fun l => kept_withUserSlot fun k => kept_withHostPublished fun p =>
      kept_ite (fun _ => kept_accept (keeps_setSlot ..)) fun _ => kept_refuse ..
  · exact kept_refuse ..

theorem kept_readSlot (body : List Byte) (s : State) : Kept s (readSlot body s) := by
  unfold readSlot
  split
  · refine kept_withLane fun l => ?_
    split
    · exact kept_refuse ..
    · exact kept_accept (.refl s)
  · exact kept_refuse ..

theorem kept_setFailsafe (body : List Byte) (s : State) : Kept s (setFailsafe body s) := by
  unfold setFailsafe
  split
  · refine kept_withLane fun l => kept_withUserSlot fun k => ?_
    split
    · exact kept_refuse ..
    · exact kept_withHostPublished fun p => kept_ite (fun _ => kept_accept (keeps_setSlot ..)) fun _ => kept_refuse ..
  · exact kept_refuse ..

theorem keeps_clearFailsafeActive (r : SlotRef) : Keeps s (s.clearFailsafeActive r) := by
  unfold State.clearFailsafeActive
  split
  · exact keeps_setSlot ..
  · exact .refl s

theorem kept_routeSet (body : List Byte) (s : State) : Kept s (routeSet body s) := by
  unfold routeSet
  split
  · split
    · exact kept_refuse ..
    · refine kept_withLane fun sl => kept_withLane fun dl => kept_withUserSlot fun sk => kept_withUserSlot fun dk => ?_
      split
      · exact kept_refuse ..
      · simp only
        split
        · exact kept_refuse ..
        · exact kept_accept (Keeps.trans (t := s.setRoute _ _) (.of_tables rfl rfl rfl) (keeps_clearFailsafeActive _))
  · exact kept_refuse ..

theorem kept_routeClear (body : List Byte) (s : State) : Kept s (routeClear body s) := by
  unfold routeClear
  split
  · split
    · exact kept_refuse ..
    · exact kept_accept (.of_tables rfl rfl rfl)
  · exact kept_refuse ..

/-! ## Link and report requests -/

theorem kept_softReset (body : List Byte) (s : State) : Kept s (softReset body s) :=
  kept_accept (.of_link rfl rfl fun h => ⟨h.queue, { h.link with }⟩)

theorem kept_linkReset (body : List Byte) (s : State) : Kept s (linkReset body s) :=
  kept_accept (.of_link rfl rfl fun h =>
    ⟨h.queue.linkReset, { h.link with cache := Nat.zero_le _, tags := List.nodup_nil, tagged := by simp }⟩)

theorem kept_readLinkStatus (body : List Byte) (s : State) : Kept s (readLinkStatus body s) := by
  unfold readLinkStatus
  split
  · split
    · exact kept_refuse ..
    · refine kept_accept ?_
      split
      · exact .of_link rfl rfl fun h => ⟨h.queue, { h.link with counts := by simp }⟩
      · exact .refl s
  · exact kept_refuse ..

theorem kept_setSilenceLimit (body : List Byte) (s : State) : Kept s (setSilenceLimit body s) := by
  unfold setSilenceLimit
  split
  · exact kept_accept (.of_link rfl rfl fun h => ⟨h.queue, { h.link with timer := restartedTimer_iff _ _ }⟩)
  · exact kept_refuse ..

theorem kept_reportCredit (body : List Byte) (s : State) : Kept s (reportCredit body s) := by
  unfold reportCredit
  split
  · split
    · exact kept_refuse ..
    · exact kept_accept (.of_link rfl rfl fun h => ⟨h.queue.withCredit (Nat.min_le_right ..), { h.link with }⟩)
  · exact kept_refuse ..

theorem kept_reportAck (body : List Byte) (s : State) : Kept s (reportAck body s) := by
  unfold reportAck
  split
  · split
    · exact kept_refuse ..
    · rename_i removed q hq
      exact kept_accept (.of_link rfl rfl fun h => ⟨h.queue.acknowledge hq, h.link⟩)
  · exact kept_refuse ..

/-! ## The request handler -/

theorem Hli.remember_report (h : Hli) (f : Frame) (r : Reply) :
    (h.remember f r).credit = h.credit ∧ (h.remember f r).nextReportSeq = h.nextReportSeq ∧ (h.remember f r).replies = h.replies := by
  unfold Hli.remember
  split <;> exact ⟨rfl, rfl, rfl⟩

/-- A reply is remembered and queued where the reply queue has a place (steps 5 and 6 of R157). -/
theorem LinkOk.answer {f : Frame} {r : Reply} (h : LinkOk s) (hplace : s.hli.replies.length < 4) (hr : r.tag = f.tag) :
    LinkOk (s.onHli fun h => Hli.queueReply r (h.remember f r)) := by
  obtain ⟨hc, hn, hq⟩ := s.hli.remember_report f r
  refine ⟨?_, (h.link.remember hr).queueReply (hq ▸ hplace) r⟩
  simp only [State.reports_onHli, State.hli_onHli, Hli.queueReply, hc, hn]
  exact h.queue

/-- Taking a frame, answering it and remembering the answer keep both invariants (R157). -/
theorem sound_handle {f : Frame} {act : List Byte → State → State × Answer} (h : ∀ s, Kept s (act f.body s)) (s : State) :
    NextIs (Sound s) (handle f act s) := by
  have popped : Keeps s (s.onHli Hli.popBuffer) := .of_link rfl rfl fun w => ⟨w.queue, w.link.popBuffer⟩
  refine nextIs_ite (fun _ => .refused _) fun _ => nextIs_ite (fun _ => .refused _) fun hplace =>
    nextIs_ite (fun _ => ?_) fun _ => .refused _
  have place : s.hli.replies.length < 4 := by omega
  simp only
  split
  · refine .next ⟨fun w => ?_, popped.lanes⟩
    obtain ⟨hf, hc, ho, -⟩ := w.link.counts
    have counted : LinkWf { (s.onHli Hli.popBuffer).hli with
        counts := { s.hli.counts with duplicate := bump 65535 s.hli.counts.duplicate } } :=
      { (popped.link w).link with counts := ⟨hf, hc, ho, bump_le ..⟩ }
    exact ⟨w.queue, counted.queueReply place _⟩
  · have acted : Keeps s (act f.body (s.onHli Hli.popBuffer)).1 := popped.trans (h _)
    refine .next ⟨fun w => ?_, fun w => (acted.lanes w).of_lanes rfl⟩
    exact (acted.link w).answer (by rw [acted.replies]; exact place) rfl

theorem sound_handleRequest {act : List Byte → State → State × Answer} (h : ∀ body s, Kept s (act body s)) (code tag : Byte)
    (body : List Byte) (s : State) : NextIs (Sound s) (handleRequest code tag body act s) :=
  sound_handle (fun s => kept_checkLength (fun body => h body s) body) s

/-! ## The events of the part -/

/-- A lane engine after reset holds what HALTED allows. -/
theorem LaneWf.reset : LaneWf Lane.reset := by
  have rest : RestWf Lane.reset :=
    ⟨rfl, rfl, rfl, rfl, ⟨by decide, by decide, by decide⟩, by decide, ⟨by decide, by decide, by decide, by decide, by decide, by decide⟩,
      by decide, nofun, by decide, by decide, by decide⟩
  exact rest.laneWf (by decide) (by decide) (by decide) (by decide) nofun

theorem State.lane_afterReset (rate : HostRate) (cause : ResetCause) (pending : List Instr) (l : LaneId) :
    (State.afterReset rate cause pending).lane l = Lane.reset := by
  simp [State.afterReset, State.lane]

/-- A reset establishes both invariants. -/
theorem sound_afterReset (s : State) (rate : HostRate) (cause : ResetCause) (pending : List Instr) :
    Sound s (State.afterReset rate cause pending) where
  link _ :=
    ⟨⟨Nat.zero_le _, Nat.zero_le _, Nat.zero_le _, fun _ => rfl, ⟨Nat.le_refl 1, (by decide : 1 ≤ 65535)⟩, List.nodup_nil,
        by simp [State.afterReset]⟩,
      ⟨Nat.zero_le _, Nat.zero_le _, Nat.zero_le _, List.nodup_nil, by simp [State.afterReset, Hli.reset],
        by simp [State.afterReset, Hli.reset], by simp [State.afterReset, Hli.reset]⟩⟩
  lanes _ l := State.lane_afterReset rate cause pending l ▸ LaneWf.reset

/-- A change of the Host Link Interface within its bounds that leaves the credit and the numbering of the reports. -/
theorem sound_onHli {f : Hli → Hli} (hw : LinkWf s.hli → LinkWf (f s.hli)) (hc : (f s.hli).credit = s.hli.credit)
    (hn : (f s.hli).nextReportSeq = s.hli.nextReportSeq) : Sound s (s.onHli f) where
  link h := ⟨by simp only [State.reports_onHli, State.hli_onHli, hc, hn]; exact h.queue, hw h.link⟩
  lanes h := h.of_lanes rfl

theorem Sound.trans (h : Sound s t) (k : Sound t u) : Sound s u := ⟨fun w => k.link (h.link w), fun w => k.lanes (h.lanes w)⟩

theorem sound_insideFrame {k : State → Host.Outcome State Fault Refusal} (h : ∀ s, NextIs (Sound s) (k s)) (s : State) :
    NextIs (Sound s) (insideFrame s k) := by
  unfold insideFrame
  split
  · exact .refused _
  · have hunting : Sound s (s.onHli fun h => { h with receiver := .hunting }) := sound_onHli (fun w => { w with }) rfl rfl
    exact (h _).mono fun _ => hunting.trans

theorem sound_countFraming (s : State) : Sound s (s.onHli countFraming) := sound_onHli (fun w => w.countFraming) rfl rfl

theorem sound_report {r : Report} (h : r.Fresh) : Sound s (s.report r) where
  link w := ⟨w.queue.handOver h, w.link⟩
  lanes w := w.of_lanes rfl

theorem fresh_hostSilence (begins : Bool) : (Report.hostSilence begins).Fresh := nofun

/-- The silence guard takes a good frame: HOST_SILENT ends with its report, and the timer restarts (R155, R170). -/
theorem sound_guardTakesFrame (s : State) : Sound s (guardTakesFrame s) := by
  unfold guardTakesFrame
  simp only
  split
  · have link : LinkOk s → LinkOk (((s.onHli fun h => { h with hostSilent := false }).report (.hostSilence false)).onHli fun h =>
        { h with silenceTimer := restartedTimer h.silenceLimit false }) := fun h =>
      ⟨h.queue.handOver (fresh_hostSilence false), { h.link with timer := (restartedTimer_iff _ _).trans (by simp) }⟩
    exact ⟨link, fun w => w.of_lanes rfl⟩
  · rename_i hs
    refine sound_onHli (fun w => { w with timer := ?_ }) rfl rfl
    have hs : s.hli.hostSilent = false := by simpa using hs
    simpa [hs] using restartedTimer_iff s.hli.silenceLimit false

theorem sound_goodFrame (bytes : List LinkLevels) (s : State) : NextIs (Sound s) (execGoodFrame bytes s) := by
  refine sound_insideFrame (fun s => ?_) s
  split
  · exact .refused _
  · rename_i f _
    have received : Sound (guardTakesFrame s) ((guardTakesFrame s).onHli fun h => h.receive f) := by
      refine sound_onHli (fun w => w.receive f) ?_ ?_ <;> (unfold Hli.receive; split <;> rfl)
    exact .next ((sound_guardTakesFrame s).trans received)

theorem sound_frameDiscard (found : DiscardedByte) (s : State) : NextIs (Sound s) (execFrameDiscard found s) := by
  refine sound_insideFrame (fun s => ?_) s
  split
  · exact .next (sound_countFraming s)
  · exact nextIs_ite (fun _ => .refused _) fun _ => nextIs_ite
      (fun _ => .next (sound_onHli (fun w => { w.countFraming with }) rfl rfl)) fun _ => .next (sound_countFraming s)

theorem sound_crcMismatch (bytes : List LinkLevels) (s : State) : NextIs (Sound s) (execCrcMismatch bytes s) := by
  refine sound_insideFrame (fun s => nextIs_ite (fun _ => .next (sound_onHli (fun w => ?_) rfl rfl)) fun _ => .refused _) s
  obtain ⟨hf, -, ho, hd⟩ := w.counts
  exact { w with counts := ⟨hf, bump_le .., ho, hd⟩ }

theorem sound_frameStartByte (levels : LinkLevels) (s : State) : NextIs (Sound s) (execFrameStartByte s levels) := by
  unfold execFrameStartByte
  split
  · exact nextIs_ite (fun _ => .next (sound_onHli (fun w => { w with }) rfl rfl)) fun _ => .next ⟨id, id⟩
  · exact .refused _

theorem sound_hostSilenceBegin (s : State) : NextIs (Sound s) (execHostSilenceBegin s) := by
  unfold execHostSilenceBegin
  split
  · exact .refused _
  · refine .next (Sound.trans (t := (s.onHli fun h => { h with hostSilent := true, silenceTimer := .stopped }).applyFailsafe)
      ⟨fun w => ⟨w.queue, { w.link with timer := by simp [State.applyFailsafe] }⟩, fun w => w.of_lanes rfl⟩ (sound_report (fresh_hostSilence true)))

theorem sound_whenIdle {k : Host.Outcome State Fault Refusal} (h : NextIs (Sound s) k) : NextIs (Sound s) (whenIdle s k) := by
  unfold whenIdle
  split
  · exact .refused _
  · exact h

theorem sound_sendReady (s : State) : NextIs (Sound s) (execSendReady s) := by
  refine sound_whenIdle ?_
  split
  · exact .refused _
  · exact .next (sound_onHli (fun w => { w with }) rfl rfl)

theorem sound_sendReply (s : State) : NextIs (Sound s) (execSendReply s) := by
  refine sound_whenIdle ?_
  split
  · rename_i r rest _ hr
    refine .next (sound_onHli (fun w => { w with replies := ?_ }) rfl rfl)
    have := w.replies
    rw [hr] at this
    exact (Nat.le_succ _).trans this
  · exact .refused _

theorem sound_sendReport (s : State) : NextIs (Sound s) (execSendReport s) := by
  refine sound_whenIdle ?_
  split
  · rename_i r rest _ _ hu
    exact nextIs_ite (fun _ => .refused _) fun hc =>
      .next ⟨fun w => ⟨w.queue.send hu hc, { w.link with }⟩, fun w => w.of_lanes rfl⟩
  · exact .refused _

theorem sound_frameEnd (s : State) : NextIs (Sound s) (execFrameEnd s) := by
  unfold execFrameEnd
  split
  · exact .refused _
  · refine nextIs_ite (fun _ => .next (sound_afterReset ..)) fun _ => ?_
    split <;> exact .next (sound_onHli (fun w => { w with }) rfl rfl)

/-! ## Every step -/

/-- An event of a lane keeps both invariants. -/
theorem sound_laneEvent {c : Instr} (hl : c.lane = some l) : NextIs (Sound s) (exec c s) := by
  cases hr : exec c s with
  | next t =>
    have moves : LaneMoves l s t := (laneMoves_of_exec hl).of_eq_next hr
    have keeps : Keeps s t := .of_moves moves fun h => (keepsLane_of_exec hl h).of_eq_next hr
    exact .next keeps.toSound
  | fault f => exact .fault f
  | refused r => exact .refused r

/-- Every command keeps both invariants. -/
theorem sound_exec (c : Instr) (s : State) : NextIs (Sound s) (exec c s) := by
  cases hl : c.lane with
  | some l => exact sound_laneEvent hl
  | none =>
    cases c with
    | powerOnReset hrate => exact .next (sound_afterReset ..)
    | pinReset hrate => exact .next (sound_afterReset ..)
    | goodFrame bytes => exact sound_goodFrame ..
    | frameDiscard found => exact sound_frameDiscard ..
    | crcMismatch bytes => exact sound_crcMismatch ..
    | frameGapTimeout => exact sound_insideFrame (fun s => .next (sound_countFraming s)) s
    | hostSilenceBegin => exact sound_hostSilenceBegin s
    | sendReady => exact sound_sendReady s
    | sendReply => exact sound_sendReply s
    | sendReport => exact sound_sendReport s
    | frameEnd => exact sound_frameEnd s
    | frameStartByte levels => exact sound_frameStartByte ..
    | unknownRequest kind tag body =>
      exact nextIs_ite (fun _ => .refused _) fun _ => sound_handle (fun s => kept_refuse _ s) s
    | hello => exact sound_handleRequest (fun _ s => kept_accept (.refl s)) ..
    | softReset => exact sound_handleRequest kept_softReset ..
    | linkReset => exact sound_handleRequest kept_linkReset ..
    | readLinkStatus => exact sound_handleRequest kept_readLinkStatus ..
    | setSilenceLimit => exact sound_handleRequest kept_setSilenceLimit ..
    | configLane => exact sound_handleRequest kept_configLane ..
    | laneStart => exact sound_handleRequest (fun body s => kept_laneAlone (fun l => kept_startLane l s) body) ..
    | laneHalt => exact sound_handleRequest (fun body s => kept_laneAlone (fun l => kept_haltLane l s) body) ..
    | laneSleep => exact sound_handleRequest (fun body s => kept_laneAlone (fun l => kept_sleepLane l s) body) ..
    | laneWake => exact sound_handleRequest (fun body s => kept_laneAlone (fun l => kept_wakeLane l s) body) ..
    | readLaneStatus => exact sound_handleRequest kept_readLaneStatus ..
    | clearCapture => exact sound_handleRequest (fun body s => kept_laneAlone (fun l => kept_clearCapture l s) body) ..
    | defineSlot => exact sound_handleRequest kept_defineSlot ..
    | clearSlot => exact sound_handleRequest kept_clearSlot ..
    | writeSlot => exact sound_handleRequest kept_writeSlot ..
    | readSlot => exact sound_handleRequest kept_readSlot ..
    | setFailsafe => exact sound_handleRequest kept_setFailsafe ..
    | schedOpen => exact sound_handleRequest kept_schedOpen ..
    | schedAdd => exact sound_handleRequest kept_schedAdd ..
    | schedCommit => exact sound_handleRequest kept_schedCommit ..
    | schedDiscard => exact sound_handleRequest kept_schedDiscard ..
    | readSchedule => exact sound_handleRequest kept_readSchedule ..
    | sendOnce => exact sound_handleRequest kept_sendOnce ..
    | withdraw => exact sound_handleRequest kept_withdraw ..
    | routeSet => exact sound_handleRequest kept_routeSet ..
    | routeClear => exact sound_handleRequest kept_routeClear ..
    | readRoutes => exact sound_handleRequest (fun _ s => kept_accept (.refl s)) ..
    | reportCredit => exact sound_handleRequest kept_reportCredit ..
    | reportAck => exact sound_handleRequest kept_reportAck ..
    | _ => cases hl

/-- Every step keeps both invariants, whatever commands wait (log entry 7). -/
theorem sound_of_step (h : step s = .next t) : Sound s t := by
  unfold step at h
  split at h
  · cases h
    exact ⟨id, id⟩
  · rename_i c rest _
    have waiting : Sound s { s with pending := rest } := ⟨fun w => ⟨w.queue, w.link⟩, fun w => w.of_lanes rfl⟩
    exact waiting.trans ((sound_exec c _).of_eq_next h)

/-! ## The pins -/

theorem State.ltx_pins (s : State) (bit : Nat) (l : LaneId) : (s.pins bit).ltx[l.val] = !(s.lane l).line.driving := by
  simp [State.pins, State.lane, Lane.ltxHigh]

theorem State.len_pins (s : State) (bit : Nat) (l : LaneId) : (s.pins bit).len[l.val] = ((s.lane l).condition != .sleeping) := by
  simp [State.pins, State.lane, Lane.lenOn]

/-- HATNn is low exactly while a record is pending with no credit or READY waits (R149). -/
theorem State.hatn_pins (s : State) (bit : Nat) :
    (s.pins bit).hatn = false ↔ s.reports.unsent ≠ [] ∧ s.hli.credit = 0 ∨ s.hli.ready ≠ none := by
  cases hr : s.hli.ready <;> simp [State.pins, State.hatnLow, hr]

/-- Settles O56: every step is sound for the link, and the pins follow from the state. -/
theorem theHostLinkStaysInBounds : Obligations.TheHostLinkStaysInBounds := by
  refine ⟨fun s t hq hl h => ?_, fun s bit => ⟨s.hatn_pins bit, fun h => s.htxHigh_idle h bit, fun f h => ⟨fun high hb => ?_, fun hb => ?_⟩⟩,
    rfl, rfl, by decide⟩
  · obtain ⟨queue, link⟩ := (sound_of_step h).link ⟨hq, hl⟩
    exact ⟨queue, link⟩
  · exact (State.htxHigh_frame h bit).trans (by rw [hb]; rfl)
  · exact (State.htxHigh_frame h bit).trans (by rw [List.getElem?_eq_none hb]; rfl)

/-- Settles O57: every step is sound for the lanes, and the bit being sent decides LTXn. -/
theorem lanesHoldWhatTheirConditionAllows : Obligations.LanesHoldWhatTheirConditionAllows := by
  refine ⟨fun s t hs h => (sound_of_step h).lanes hs, fun s l bit hs => ?_⟩
  have h := hs l
  have driven : ∀ t, (s.lane l).transaction = some t → t.levelsSent[(s.lane l).line.sent]? = some false → (s.pins bit).ltx[l.val] = false :=
    fun t ht hb => by rw [State.ltx_pins, (h.sending t ht).mpr hb]; rfl
  refine ⟨by simp [State.len_pins], fun hlow => ?_, fun t hp hb => ?_, fun t hp hk hb => ?_⟩
  · have hd : (s.lane l).line.driving = true := by simpa [State.ltx_pins] using hlow
    cases ht : (s.lane l).transaction with
    | none => exact .inl ⟨rfl, h.pulse ht hd⟩
    | some t =>
      have hb := (h.sending t ht).mp hd
      refine .inr ⟨t, ?_⟩
      by_cases hc : t.phase = .call
      · exact .inl ⟨hc, rfl, levelsSent_call hc ▸ hb⟩
      · have hsend : t.phase = .send := by
          by_contra hn
          simp [levelsSent_eq_nil hc hn] at hb
        exact .inr ⟨hsend, rfl, levelsSent_send hsend ((h.transaction t ht).sends hsend) ▸ hb⟩
  · exact driven t hb.1 (levelsSent_call hp ▸ hb.2)
  · exact driven t hb.1 (levelsSent_send hp hk ▸ hb.2)

end Sys2Proof.Machine
end

section
/-!
Single events of a lane: CONFIG_LANE and LANE_WAKE, the stuck fault, sleep and wake, and the bit time (R26, R43, R44, R120 to R126, R133).
-/

namespace Sys2Proof.Machine

open Sys2Proof

variable {l : LaneId} {s : State}

/-! ## CONFIG_LANE -/

theorem bitRateOf_eq (b : Byte) : bitRateOf b =
    if b.toNat ≤ 4 then
      some (if b = 0 then .bps1200 else if b = 1 then .bps2400 else if b = 2 then .bps4800 else if b = 3 then .bps9600 else .bps19200)
    else none := by
  revert b; decide

theorem flagOf_eq (b : Byte) : flagOf b = if b.toNat ≤ 1 then some (decide (b = 1)) else none := by
  revert b; decide

/-- The nine bytes of CONFIG_LANE are a configuration exactly where every one is in its range (R132, R177). -/
theorem laneConfigOf_eq (rate filter timeout gap turnaround probe recover pulse settle : Byte) :
    laneConfigOf [rate, filter, timeout, gap, turnaround, probe, recover, pulse, settle] =
      if rate.toNat ≤ 4 ∧ filter.toNat ≤ 1 ∧ 2 ≤ timeout.toNat ∧ timeout.toNat ≤ 40 ∧ 1 ≤ gap.toNat ∧ gap.toNat ≤ 12
        ∧ 2 ≤ turnaround.toNat ∧ turnaround.toNat ≤ 16 ∧ 1 ≤ probe.toNat ∧ probe.toNat ≤ 32 ∧ recover.toNat ≤ 1
        ∧ 4 ≤ pulse.toNat ∧ pulse.toNat ≤ 24 ∧ 16 ≤ settle.toNat
      then some
        { bitRate := if rate = 0 then .bps1200 else if rate = 1 then .bps2400 else if rate = 2 then .bps4800
            else if rate = 3 then .bps9600 else .bps19200
          sampleFilter := filter = 1, responseTimeout := timeout.toNat, gapLimit := gap.toNat
          turnaroundGap := turnaround.toNat, probeInterval := probe.toNat, autoRecover := recover = 1
          wakePulse := pulse.toNat, wakeSettle := settle.toNat }
      else none := by
  have settleMax : settle.toNat ≤ 255 := Nat.le_of_lt_succ settle.isLt
  simp only [laneConfigOf, bitRateOf_eq, flagOf_eq, inRange, Option.pure_def, Option.bind_eq_bind]
  by_cases h : rate.toNat ≤ 4 ∧ filter.toNat ≤ 1 ∧ 2 ≤ timeout.toNat ∧ timeout.toNat ≤ 40 ∧ 1 ≤ gap.toNat ∧ gap.toNat ≤ 12
      ∧ 2 ≤ turnaround.toNat ∧ turnaround.toNat ≤ 16 ∧ 1 ≤ probe.toNat ∧ probe.toNat ≤ 32 ∧ recover.toNat ≤ 1
      ∧ 4 ≤ pulse.toNat ∧ pulse.toNat ≤ 24 ∧ 16 ≤ settle.toNat
  · rw [if_pos h]
    obtain ⟨h1, h2, h3, h4, h5, h6, h7, h8, h9, h10, h11, h12, h13, h14⟩ := h
    simp only [h1, h2, h3, h4, h5, h6, h7, h8, h9, h10, h11, h12, h13, h14, settleMax, and_self, if_true, Option.bind_some]
  · rw [if_neg h]
    refine Option.eq_none_iff_forall_ne_some.mpr fun config hc => h ?_
    simp only [Option.bind_eq_some_iff, Option.ite_none_right_eq_some] at hc
    obtain ⟨_, ⟨hrate, -⟩, _, ⟨hfilter, -⟩, _, ⟨htimeout, -⟩, _, ⟨hgap, -⟩, _, ⟨hturn, -⟩, _, ⟨hprobe, -⟩, _, ⟨hrecover, -⟩, _,
      ⟨hpulse, -⟩, _, ⟨hsettle, -⟩, -⟩ := hc
    exact ⟨hrate, hfilter, htimeout.1, htimeout.2, hgap.1, hgap.2, hturn.1, hturn.2, hprobe.1, hprobe.2, hrecover, hpulse.1, hpulse.2,
      hsettle.1⟩

/-- Settles O16: the ranges of the bytes decide first, and then the condition of the lane. -/
theorem configLaneReplacesTheRecord : Obligations.ConfigLaneReplacesTheRecord := by
  intro s tag l rate filter timeout gap turnaround probe recover pulse settle body h inRange
  have hexec : exec (.configLane tag body) s = handle ⟨0x10, tag, body⟩ (checkLength 0x10 configLane) s := rfl
  have hlen : bodyLengthOk 0x10 body.length = true := rfl
  refine ⟨fun hr => ?_, fun hr hc => ?_, fun hr hc => ?_⟩
  · refine refuses_of_act h hexec ?_ (by decide)
    simp only [checkLength, hlen, if_true, body, configLane, withLane, laneOf_byte, laneConfigOf_eq]
    rw [if_neg hr]
  · refine refuses_of_act h hexec ?_ (by decide)
    simp only [checkLength, hlen, if_true, body, configLane, withLane, laneOf_byte, laneConfigOf_eq]
    rw [if_pos hr]
    simp only [State.lane_onHli, hc, if_false]
  · refine answers_of_act h hexec ?_ (.inl (by simp))
    simp only [checkLength, hlen, if_true, body, configLane, withLane, laneOf_byte, laneConfigOf_eq]
    rw [if_pos hr]
    exact (if_pos hc).trans rfl

/-! ## LANE_WAKE -/

/-- Entry into WAKING, where `L` is the lane before it (R120, R122, R123). -/
theorem enterWaking_eq {L : Lane} (h : s.lane l = L) (cause : Cause) :
    enterWaking l cause s = { s.setLane l { L with condition := .waking } with
      reports := s.reports.handOver (.laneChange l L.condition.reported .waking cause) } := by
  subst h; rfl

/-- LANE_WAKE in SLEEPING: the wake pulse begins (R122). -/
theorem wakeLane_sleeping (hc : (s.lane l).condition = .sleeping) :
    wakeLane l s = accept []
      { s.setLane l { s.lane l with condition := .waking, line := (s.lane l).line.startDriving } with
        reports := s.reports.handOver (.laneChange l .sleeping .waking .request) } := by
  simp only [wakeLane, hc]
  rw [enterWaking_eq (L := { s.lane l with line := (s.lane l).line.startDriving }) (State.lane_onLane_self ..)]
  simp only [State.onLane, State.setLane_setLane, State.reports_setLane, hc]
  rfl

theorem wakeLane_refuses (hc : (s.lane l).condition ≠ .sleeping) : wakeLane l s = refuse .badState s := by
  unfold wakeLane
  split
  · exact absurd ‹_› hc
  all_goals rfl

/-- Settles O21: the request starts to drive the line and changes the condition, in SLEEPING alone. -/
theorem laneWakeBeginsThePulse : Obligations.LaneWakeBeginsThePulse := by
  intro s tag l h L c f
  have hexec : exec c s = handle f (checkLength 0x14 (laneAlone wakeLane)) s := rfl
  have hlen : bodyLengthOk 0x14 f.body.length = true := rfl
  have hact : ∀ u, checkLength 0x14 (laneAlone wakeLane) f.body u = wakeLane l u := fun u => by
    simp only [checkLength, hlen, if_true, laneAlone, f, withLane, laneOf_byte]
  refine ⟨fun hc => answers_of_act h hexec ?_ (.inl (by simp [f])), fun hc => refuses_of_act h hexec ?_ (by decide)⟩
  · rw [hact, wakeLane_sleeping (s := s.onHli Hli.popBuffer) hc]
    rfl
  · rw [hact, wakeLane_refuses (s := s.onHli Hli.popBuffer) hc]

/-! ## The stuck fault -/

/-- Settles O49: the fault completes the queue and abandons the round of a RUNNING lane; in FAULTED it is only counted. -/
theorem stuckLinesFault : Obligations.StuckLinesFault := by
  intro s l ht hd L line
  have hexec : exec (.stuckFault l) s = raiseStuck l s := rfl
  simp only [hexec, raiseStuck, ht, hd, Bool.false_eq_true, if_false]
  refine ⟨fun hc => ?_, fun hc => ?_⟩
  · simp only [show (s.lane l).condition = .faulted from hc]
    rfl
  · have faults : enterFaulted l .stuck (s.onLine l LineState.stuck) = _ :=
      enterFaulted_eq .stuck (L := { s.lane l with line := (s.lane l).line.stuck }) (State.lane_onLane_self ..)
    rcases hc with hc | hc | hc | hc
    all_goals
      have hc : (s.lane l).condition = _ := hc
      simp only [hc, faults, L, line, hd]
      simp [State.onLine, State.onLane, Condition.reported, Condition.resumeAfterFault, Lane.completions, LineState.stuck]

/-! ## Sleep and wake -/

/-- Entry into SLEEPING from the release wait, where `L` is the lane before it (R102, R120). -/
theorem completeQueued_changeCondition {L : Lane} (h : s.lane l = L) (c : Condition) (cause : Cause) (o : Completion) :
    completeQueued l o (changeCondition l c cause s) = { s.setLane l { L with condition := c, oneShots := [] } with
      reports := (.laneChange l L.condition.reported c cause :: L.completions l o).foldl ReportQueue.handOver s.reports } := by
  subst h
  have lane : (changeCondition l c cause s).lane l = { s.lane l with condition := c } :=
    s.lane_onLane_self l fun L => { L with condition := c }
  rw [completeQueued_eq o lane]
  simp only [changeCondition, State.setLane_report, State.onLane, State.setLane_setLane]
  rfl

theorem inCondition_eq {c : Condition} {k : Host.Outcome State Fault Refusal} (hc : (s.lane l).condition = c) : inCondition l c s k = k :=
  if_pos hc

theorem inReleaseWait_eq {k : Host.Outcome State Fault Refusal} (hc : (s.lane l).condition = .sleepPending)
    (ht : (s.lane l).transaction = none) : inReleaseWait l s k = k := by
  rw [inReleaseWait, inCondition_eq hc, if_neg (by simp [State.busy, ht])]

/-- A dominant bit time in the sleep release wait (R120). -/
theorem objectToSleep_eq (hc : (s.lane l).condition = .sleepPending) : objectToSleep l s =
    { s.setLane l { s.lane l with
        condition := .waking, line := { (s.lane l).line with dominantRun := 1, recessiveRun := 0, waited := 0 } } with
      reports := s.reports.handOver (.laneChange l .sleepPending .waking .busWake) } := by
  have lane : (s.onLine l fun x => { x.firstDominant with waited := 0 }).lane l
      = { s.lane l with line := { (s.lane l).line.firstDominant with waited := 0 } } := State.lane_onLane_self ..
  rw [objectToSleep, enterWaking_eq lane]
  simp only [State.onLine, State.onLane, State.setLane_setLane, hc]
  rfl

/-- The end of a responder's run on a SLEEPING lane (R44, R123). -/
theorem endResponderRun_eq (hc : (s.lane l).condition = .sleeping) (run : Nat) : endResponderRun l run s =
    if 3 ≤ run then
      { s.setLane l { s.lane l with condition := .waking, line := { (s.lane l).line with dominantRun := 0, recessiveRun := 1 } } with
        reports := s.reports.handOver (.laneChange l .sleeping .waking .busWake) }
    else s.setLane l { s.lane l with line := { (s.lane l).line with dominantRun := 0, recessiveRun := 1 } } := by
  have lane : (s.onLine l fun x => { x with dominantRun := 0, recessiveRun := 1 }).lane l
      = { s.lane l with line := { (s.lane l).line with dominantRun := 0, recessiveRun := 1 } } := State.lane_onLane_self ..
  rw [endResponderRun, enterWaking_eq lane]
  simp only [State.onLine, State.onLane, State.setLane_setLane, Lane.onLine, hc]
  split <;> rfl

theorem execResponderWake_eq (hc : (s.lane l).condition = .sleeping) {run : Nat} (h1 : 1 ≤ run) (h30 : run < 30) :
    exec (.responderWake l run) s = .next (endResponderRun l run s) :=
  (inCondition_eq hc).trans (if_neg (by omega))

theorem execSleepReleaseComplete_eq (hc : (s.lane l).condition = .sleepPending) (ht : (s.lane l).transaction = none) :
    execSleepReleaseComplete l s = .next
      { s.setLane l { s.lane l with
          condition := .sleeping, oneShots := []
          line := { (s.lane l).line with
            dominantRun := 0
            recessiveRun := min ((s.lane l).line.recessiveRun + ((s.lane l).config.turnaroundGap - (s.lane l).line.waited)) 255
            waited := 0 } } with
        reports := (.laneChange l .sleepPending .sleeping .request :: (s.lane l).completions l .laneAsleep).foldl
          ReportQueue.handOver s.reports } := by
  rw [execSleepReleaseComplete, inReleaseWait_eq hc ht, completeQueued_changeCondition (State.lane_onLane_self ..)]
  simp only [State.onLane, State.setLane_setLane, Lane.onLine, hc]
  rfl

/-- Settles O50: each event by its own equation. -/
theorem lanesSleepAndWake : Obligations.LanesSleepAndWake := by
  intro s l L
  refine ⟨fun hc ht => ⟨execSleepReleaseComplete_eq hc ht, ?_⟩, ?_, fun hc hd => ?_⟩
  · exact (inReleaseWait_eq hc ht).trans (congrArg _ (objectToSleep_eq hc))
  · intro run hc line
    refine ⟨fun hr => ?_, fun h3 h30 => ?_⟩
    · rw [execResponderWake_eq hc (by omega) (by omega), endResponderRun_eq hc, if_neg (by omega)]
    · rw [execResponderWake_eq hc (by omega) h30, endResponderRun_eq hc, if_pos h3]
  · exact (inCondition_eq hc).trans (if_pos hd)

end Sys2Proof.Machine
end

section
/-!
One bit time of a lane, by the condition of the lane and the phase of its transaction (R25 to R27, R32, R33, R39, R41 to R43, R81, R120, R123).
-/

namespace Sys2Proof.Machine

open Sys2Proof

variable {l : LaneId} {s : State} {t : Transaction} {bit : Samples 1}

/-! ## The level of the bit time -/

theorem dominant_of_zero {filter : Bool} (h : bit.levels filter = 0#1) : bit.dominant filter = true := (dominant_iff filter bit).mpr h

theorem dominant_of_one {filter : Bool} (h : bit.levels filter = 1#1) : bit.dominant filter = false := by
  simp [Samples.dominant, h]

/-- A level of one bit time is dominant or recessive. -/
theorem not_dominant_eq (filter : Bool) (x : Samples 1) : (!x.dominant filter) = decide (x.levels filter = 1#1) := by
  rcases BitVec.eq_zero_or_eq_one (x.levels filter) with h | h <;> simp [Samples.dominant, h]

theorem dominant_ne_iff (filter : Bool) (x : Samples 1) (recessive : Bool) :
    x.dominant filter ≠ recessive ↔ (x.levels filter = 1#1 ↔ recessive = true) := by
  rw [← decide_eq_true_iff (p := x.levels filter = 1#1), ← not_dominant_eq]
  cases x.dominant filter <;> cases recessive <;> simp

theorem execDominantBitTime_none (ht : (s.lane l).transaction = none) :
    exec (.dominantBitTime l bit) s = betweenTransactions l (bit.dominant (s.lane l).config.sampleFilter) s := by
  have : exec (.dominantBitTime l bit) s = execDominantBitTime l bit s := rfl
  rw [this, execDominantBitTime, ht]

theorem execDominantBitTime_some (ht : (s.lane l).transaction = some t) :
    exec (.dominantBitTime l bit) s = inTransaction l t (bit.dominant (s.lane l).config.sampleFilter) s := by
  have : exec (.dominantBitTime l bit) s = execDominantBitTime l bit s := rfl
  rw [this, execDominantBitTime, ht]

/-! ## A bit time that counts in the runs -/

theorem countDominant_last (h : (s.lane l).line.dominantRun = 29) : countDominant l s = exec (.stuckFault l) s := if_pos h

theorem countDominant_next (h : (s.lane l).line.dominantRun ≠ 29) : countDominant l s = .next (s.setLane l { s.lane l with
    line := { (s.lane l).line with dominantRun := min ((s.lane l).line.dominantRun + 1) 30, recessiveRun := 0 }
    round := { (s.lane l).round with pause := (s.lane l).round.pause.map fun _ => 0 } }) := if_neg h

/-- A recessive bit time of a wait. -/
theorem waitOn_countRecessive : (countRecessive l s).onLine l LineState.waitOn = s.setLane l { s.lane l with
    line := { (s.lane l).line with
      dominantRun := 0
      recessiveRun := min ((s.lane l).line.recessiveRun + 1) 255
      waited := min ((s.lane l).line.waited + 1) 255 }
    round := { (s.lane l).round with
      pause := (s.lane l).round.pause.map fun n => min (n + 1) (s.lane l).config.turnaroundGap } } := by
  simp only [countRecessive, State.onLine, State.onLane, State.lane_setLane_self, State.setLane_setLane]
  rfl

/-- Outside the sleep release wait a dominant bit time of no transaction counts in the dominant run. -/
theorem betweenTransactions_dominant (hd : (s.lane l).line.driving = false) (hc : (s.lane l).condition ≠ .sleepPending) :
    betweenTransactions l true s = countDominant l s := by
  simp only [betweenTransactions, hd, Bool.false_eq_true, if_false, if_true]
  split
  · exact absurd ‹_› hc
  all_goals rfl

/-- Outside SLEEP_PENDING and SLEEPING a recessive bit time of no transaction counts in the recessive run. -/
theorem betweenTransactions_recessive (hd : (s.lane l).line.driving = false) (hc : (s.lane l).condition ≠ .sleepPending)
    (hs : (s.lane l).condition ≠ .sleeping) : betweenTransactions l false s = .next (countRecessive l s) := by
  simp only [betweenTransactions, hd, Bool.false_eq_true, if_false]
  split
  · exact absurd ‹_› hc
  · exact absurd ‹_› hs
  all_goals rfl

/-- A bit time of the sleep release wait (R120). -/
theorem betweenTransactions_sleepPending (hd : (s.lane l).line.driving = false) (hc : (s.lane l).condition = .sleepPending)
    (dominant : Bool) : betweenTransactions l dominant s =
      .next (if dominant then objectToSleep l s else (countRecessive l s).onLine l LineState.waitOn) := by
  simp only [betweenTransactions, hd, hc, Bool.false_eq_true, if_false]

/-- A recessive bit time in SLEEPING ends a responder's run (R123). -/
theorem betweenTransactions_sleeping (hd : (s.lane l).line.driving = false) (hc : (s.lane l).condition = .sleeping) :
    betweenTransactions l false s =
      if 1 ≤ (s.lane l).line.dominantRun ∧ (s.lane l).line.dominantRun < 30 then
        .next (endResponderRun l (s.lane l).line.dominantRun s)
      else .next (countRecessive l s) := by
  simp only [betweenTransactions, hd, hc, Bool.false_eq_true, if_false]

/-! ## A bit that the engine sends -/

/-- A bit that reads otherwise than it was sent is the readback error with no bit ahead of it (R41). -/
theorem readBack_eq_readbackError {recessive : Bool} (ht : (s.lane l).transaction = some t)
    (h : t.levelsSent[(s.lane l).line.sent]? = some recessive)
    (hd : bit.dominant (s.lane l).config.sampleFilter = recessive) :
    readBack l t (bit.dominant (s.lane l).config.sampleFilter) s = exec (.readbackError l 0 bit) s := by
  have : exec (.readbackError l 0 bit) s = execReadbackError l 0 bit s := rfl
  rw [readBack_mismatch h hd]
  simp only [this, execReadbackError, ht, Nat.add_zero, h, hd, if_true]

/-- The line goes on to the next bit (R26, R27). -/
theorem LineState.send_eq (x : LineState) (recessive next : Bool) (i : Nat) (place : Nat × Nat) :
    (if recessive then x.recessiveFor 1 else x).send i place next =
      { x with
        driving := !next, sent := i, position := some place
        dominantRun := if next ∧ ¬ recessive then x.dominantRun else 0
        recessiveRun := if next then if recessive then min (x.recessiveRun + 1) 255 else x.recessiveRun else 0
        waited := if next then x.waited else 0 } := by
  cases recessive <;> cases next <;> rfl

/-- The last bit of the call or the publish completes it. -/
theorem readBack_last_eq_complete {recessive : Bool} (ht : (s.lane l).transaction = some t) (hp : t.phase = .call ∨ t.phase = .send)
    (h : t.levelsSent[(s.lane l).line.sent]? = some recessive) (hlast : t.levelsSent.length = (s.lane l).line.sent + 1)
    (hd : bit.dominant (s.lane l).config.sampleFilter ≠ recessive) :
    readBack l t (bit.dominant (s.lane l).config.sampleFilter) s
      = exec (if t.phase = .call then .callComplete l else .publishComplete l) s := by
  rw [readBack_last h (List.getElem?_eq_none hlast.le) hd]
  rcases hp with hp | hp
  · have : exec (.callComplete l) s = execCallComplete l s := rfl
    simp [hp, this, execCallComplete, inPhase, ht]
  · have : exec (.publishComplete l) s = execPublishComplete l s := rfl
    simp [hp, this, execPublishComplete, inPhase, ht]

/-- The levels of the call and of the publish, and the place of each bit of them, are those that the engine goes by (R30, R31, R40, R42). -/
theorem levelsSent_eq {levels : List Bool}
    (h : t.phase = .call ∧ levels = List.replicate 12 false ++ [true] ++ cellLevels (numberCell t.slot.val)
      ∨ t.phase = .send ∧ t.kind = .published ∧ levels = (publishCells t.slot (t.sendData.getD [])).flatMap cellLevels) :
    t.levelsSent = levels ∧ (t.phase = .call ∨ t.phase = .send)
      ∧ ∀ i, t.placeSent i = if t.phase = .call then (0, i - 13) else (1 + i / 10, i % 10) := by
  rcases h with ⟨hp, rfl⟩ | ⟨hp, hk, rfl⟩
  · exact ⟨levelsSent_call hp, .inl hp, fun i => by simp [hp, placeSent_call hp]⟩
  · exact ⟨levelsSent_send hp hk, .inr hp, fun i => by simp [hp, placeSent_send hp]⟩

theorem inTransaction_sends (hp : t.phase = .call ∨ t.phase = .send) (dominant : Bool) :
    inTransaction l t dominant s = readBack l t dominant s := by
  rcases hp with hp | hp <;> simp only [inTransaction, hp]

/-! ## A bit of a response -/

/-- Before a cell a dominant bit time is its start bit, and a recessive one is waited (R32, R34). -/
theorem inTransaction_awaits (hp : t.phase = .await ∨ t.phase = .receive ∧ (s.lane l).line.cell = none) (dominant : Bool) :
    inTransaction l t dominant s = .next (if dominant then startCell l t s else (countRecessive l s).onLine l LineState.waitOn) := by
  rcases hp with hp | ⟨hp, hc⟩
  · simp only [inTransaction, hp]
  · simp only [inTransaction, hp, hc]

theorem execResponseStartBit_dominant (ht : (s.lane l).transaction = some t)
    (hp : t.phase = .await ∨ t.phase = .receive ∧ (s.lane l).line.cell = none)
    (hd : bit.dominant (s.lane l).config.sampleFilter = true) : exec (.responseStartBit l bit) s = .next (startCell l t s) := by
  have : exec (.responseStartBit l bit) s = execResponseStartBit l bit s := rfl
  have edge : (s.lane l).awaitsEdge t = true := by
    rcases hp with hp | ⟨hp, hc⟩
    · simp [Lane.awaitsEdge, hp]
    · simp [Lane.awaitsEdge, hp, hc]
  simp only [this, execResponseStartBit, ht, edge, hd, if_true]

theorem inTransaction_cell {bits : List Bool} (hp : t.phase = .receive) (hc : (s.lane l).line.cell = some bits) (dominant : Bool) :
    inTransaction l t dominant s = takeBit l t bits dominant s := by
  simp only [inTransaction, hp, hc]

/-- A bit before the ninth is kept (R33). -/
theorem takeBit_within {bits : List Bool} (h : bits.length < 8) (dominant : Bool) :
    takeBit l t bits dominant s = .next (s.setLane l { s.lane l with
      line := { (s.lane l).line with
        dominantRun := if dominant then min ((s.lane l).line.dominantRun + 1) 30 else 0
        recessiveRun := if dominant then 0 else min ((s.lane l).line.recessiveRun + 1) 255
        position := some (t.cellIndex, bits.length + 1), cell := some (bits ++ [!dominant]) } }) := by
  have hlen : (bits ++ [!dominant]).length ≠ 9 := by rw [List.length_append, List.length_singleton]; omega
  rw [takeBit, if_neg hlen, List.length_append]
  cases dominant <;> rfl

/-- The ninth bit completes the cell (R33). -/
theorem takeBit_last {bits : List Bool} (h : bits.length = 8) {dominant : Bool} {levels : BitVec 9}
    (hl : (List.range 9).map levels.getLsbD = bits ++ [!dominant]) :
    takeBit l t bits dominant s = takeCell l t levels s takeAwaited := by
  have hlen : (bits ++ [!dominant]).length = 9 := by rw [List.length_append, List.length_singleton, h]
  rw [takeBit, if_pos hlen, ← hl, levelsOf_bits]

theorem takeCell_congr {check check' : LaneId → Transaction → Byte → State → Host.Outcome State Fault Refusal} {levels : BitVec 9}
    (h : ∀ u, check l t (cellValue levels) u = check' l t (cellValue levels) u) :
    takeCell l t levels s check = takeCell l t levels s check' := by
  simp only [takeCell, h]

/-- The cell that nine bits make is the cell received at once, where the check is the one that it awaits (R33). -/
theorem takeBit_eq_receiveCell {bits : List Bool} {cell : Samples 9} {awaited : Transaction → Bool} {dominant : Bool}
    {check : LaneId → Transaction → Byte → State → Host.Outcome State Fault Refusal} (ht : (s.lane l).transaction = some t)
    (hp : t.phase = .receive) (hc : (s.lane l).line.cell = some bits) (h : bits.length = 8)
    (hl : (List.range 9).map (cell.levels (s.lane l).config.sampleFilter).getLsbD = bits ++ [!dominant])
    (ha : awaited t = true) (hcheck : ∀ v u, takeAwaited l t v u = check l t v u) :
    takeBit l t bits dominant s = receiveCell l awaited cell s check := by
  have fits : (s.lane l).line.fits (cell.levels (s.lane l).config.sampleFilter) = true := by
    rw [LineState.fits, hc, hl, List.isPrefixOf_iff_prefix]
    exact List.prefix_append ..
  rw [takeBit_last h hl, receiveCell_eq ht hp ha fits]
  exact takeCell_congr fun u => hcheck _ u

/-- The pending window is one bit time (R39). -/
theorem inTransaction_window (ht : (s.lane l).transaction = some t) (hp : t.phase = .window) :
    inTransaction l t (bit.dominant (s.lane l).config.sampleFilter) s = exec (.pendingWindowEnd l bit) s := by
  have : exec (.pendingWindowEnd l bit) s = execPendingWindowEnd l bit s := rfl
  simp only [this, inTransaction, execPendingWindowEnd, inPhase, ht, hp, if_true]

/-! ## The bit time -/

/-- Settles O52: the level decides between the two bit times, and the condition and the phase say what each of them is. -/
theorem dominantBitsRestartTheWaits : Obligations.DominantBitsRestartTheWaits := by
  intro s l bit L level c counted recessiveLine idle gap
  have recessive_counted (hl : level = 1#1) : countRecessive l s = counted recessiveLine := by
    simp [counted, hl]
    rfl
  have waits_counted (hl : level = 1#1) : (countRecessive l s).onLine l LineState.waitOn
      = counted { recessiveLine with waited := min (L.line.waited + 1) 255 } := by
    rw [waitOn_countRecessive]
    simp [counted, hl]
    rfl
  refine ⟨fun ht hd => ?driven, fun ⟨ht, hd⟩ hc hl => ?objects, fun ⟨ht, hd⟩ hc hl => ?releases, fun hw hl => ?dominant,
    fun hw hl => ?recessive, fun ⟨ht, hd⟩ hc hl => ?sleeping, fun t ht => ⟨fun levels recessive hlevels hsent => ?sent,
      fun hp => ?awaits, fun bits hp hcell => ?cell, fun hp => ?window⟩⟩
  case driven =>
    rw [execDominantBitTime_none ht, betweenTransactions]
    exact if_pos hd
  case objects =>
    rw [execDominantBitTime_none ht, dominant_of_zero hl, betweenTransactions_sleepPending hd hc, if_pos rfl]
    exact (inReleaseWait_eq hc ht).symm
  case releases =>
    rw [execDominantBitTime_none ht, dominant_of_one hl, betweenTransactions_sleepPending hd hc, if_neg Bool.false_ne_true,
      waits_counted hl]
  case dominant =>
    have counts : exec c s = countDominant l s := by
      rcases hw with ⟨t, ht, hp⟩ | ⟨⟨ht, hd⟩, hc⟩
      · rw [execDominantBitTime_some ht, dominant_of_zero hl]
        simp only [inTransaction, hp, if_true]
      · rw [execDominantBitTime_none ht, dominant_of_zero hl, betweenTransactions_dominant hd hc]
    refine ⟨fun h => counts.trans (countDominant_last h), fun h => counts.trans ((countDominant_next h).trans ?_)⟩
    simp only [counted, hl, if_true, L]
  case recessive =>
    rw [← recessive_counted hl]
    rcases hw with ⟨t, ht, hp⟩ | ⟨⟨ht, hd⟩, hc, hs⟩
    · rw [execDominantBitTime_some ht, dominant_of_one hl]
      simp only [inTransaction, hp, Bool.false_eq_true, if_false]
    · rw [execDominantBitTime_none ht, dominant_of_one hl, betweenTransactions_recessive hd hc hs]
  case sleeping =>
    rw [execDominantBitTime_none ht, dominant_of_one hl, betweenTransactions_sleeping hd hc]
    refine ⟨fun h1 h30 => ?_, fun h => ?_⟩
    · rw [execResponderWake_eq hc h1 h30]
      exact if_pos ⟨h1, h30⟩
    · rw [← recessive_counted hl]
      exact if_neg fun ⟨h1, h30⟩ => h.elim (Nat.ne_of_gt h1) (Nat.not_le_of_lt h30)
  case sent =>
    obtain ⟨rfl, hp, hplace⟩ := levelsSent_eq hlevels
    rw [execDominantBitTime_some ht, inTransaction_sends hp]
    refine ⟨fun hd => readBack_eq_readbackError ht hsent ((dominant_eq_iff ..).mpr hd), fun hd => ?_⟩
    have hd := (dominant_ne_iff ..).mpr hd
    refine ⟨fun next hnext => ?_, fun hlast => readBack_last_eq_complete ht hp hsent hlast hd⟩
    rw [readBack_next hsent hnext hd, State.onLine, State.onLane, Lane.onLine, LineState.send_eq, hplace]
  case awaits =>
    rw [execDominantBitTime_some ht, inTransaction_awaits hp]
    refine ⟨fun hl => ?_, fun hl => ?_⟩
    · rw [execResponseStartBit_dominant ht hp (dominant_of_zero hl), dominant_of_zero hl, if_pos rfl]
    · rw [dominant_of_one hl, if_neg Bool.false_ne_true, waits_counted hl]
  case cell =>
    rw [execDominantBitTime_some ht, inTransaction_cell hp hcell]
    refine ⟨fun h => ?_, fun h cell hbits => ?_⟩
    · rw [takeBit_within h, not_dominant_eq]
      simp only [dominant_iff, L, level]
    · rw [← not_dominant_eq] at hbits
      have whole {awaited check} := takeBit_eq_receiveCell (awaited := awaited) (check := check) ht hp hcell h hbits
      have checks := fun v u => takeAwaited_eq l t v u
      simp only [forall_and] at checks
      obtain ⟨tag, header, data, check⟩ := checks
      exact ⟨fun ha => whole ha fun v u => tag v u ha, fun ha => whole ha fun v u => header v u ha,
        fun ha => whole ha fun v u => data v u ha, fun ha => whole ha fun v u => check v u ha⟩
  case window =>
    exact (execDominantBitTime_some ht).trans (inTransaction_window ht hp)

end Sys2Proof.Machine
end

section
/-!
The requests LANE_HALT, LANE_SLEEP, READ_LANE_STATUS and CLEAR_CAPTURE (R54, R57, R61, R83, R117, R118, R130, R179, R180).
-/

namespace Sys2Proof.Machine

open Sys2Proof

variable {l : LaneId} {s : State} {t : Transaction}

/-! ## A body of the lane alone -/

/-- A request whose body is the lane alone answers what its entry answers for the lane (R178). -/
theorem answers_of_laneAlone {s u : State} {c : Instr} {code tag : Byte} {k : LaneId → State → State × Answer} {status : Status}
    {fields : List Byte} (h : Takes s ⟨code, tag, [byte l.val]⟩)
    (hexec : exec c s = handle ⟨code, tag, [byte l.val]⟩ (checkLength code (laneAlone k)) s) (hlen : bodyLengthOk code 1 = true)
    (hcode : code ≠ 0x03) (hk : k l (s.onHli Hli.popBuffer) = (u.onHli Hli.popBuffer, ⟨status, fields⟩)) :
    Answers c ⟨code, tag, [byte l.val]⟩ s status fields u := by
  refine answers_of_act h hexec ?_ (.inl hcode)
  simp only [checkLength, List.length_singleton, hlen, if_true, laneAlone, withLane, laneOf_byte, hk]

/-! ## LANE_HALT -/

/-- LANE_HALT with a transaction in progress (R61, R117). -/
theorem haltLane_busy (hc : (s.lane l).condition = .running) (ht : (s.lane l).transaction = some t) :
    haltLane l s = accept [] (s.setLane l { s.lane l with
      condition := .halting, transaction := some { t with followUpsForbidden := true } }) := by
  simp only [haltLane, hc, State.busy, ht, Option.isSome_some, if_true, forbidFollowUps, State.onLane, State.lane_setLane_self,
    State.setLane_setLane, Option.map_some]

theorem resetRound_eq {L : Lane} (h : s.lane l = L) : resetRound l s = s.setLane l { L with round := L.round.abandoned } := by
  subst h; rfl

/-- Entry into HALTED with the round abandoned (R83, R84, R117). -/
theorem enterHalted_resetRound {L : Lane} (h : s.lane l = L) (cause : Cause) : enterHalted l cause (resetRound l s) =
    { s.setLane l { L with condition := .halted, schedules := L.swapped, round := L.round.abandoned } with
      reports := (.laneChange l L.condition.reported .halted cause :: L.swapReports l).foldl ReportQueue.handOver s.reports } := by
  rw [resetRound_eq h, enterHalted_eq (State.lane_setLane_self ..)]
  simp only [State.setLane_setLane, RoundState.abandoned, ite_self]
  rfl

/-- LANE_HALT with no transaction in progress (R83, R117). -/
theorem haltLane_idle (hc : (s.lane l).condition = .running) (ht : (s.lane l).transaction = none) :
    haltLane l s = accept []
      { s.setLane l { s.lane l with
          condition := .halted, schedules := (s.lane l).swapped, round := (s.lane l).round.abandoned } with
        reports := (.laneChange l .running .halted .request :: (s.lane l).swapReports l).foldl ReportQueue.handOver s.reports } := by
  simp only [haltLane, hc, State.busy, ht, Option.isSome_none, Bool.false_eq_true, if_false, enterHalted_resetRound rfl]
  rfl

/-- LANE_HALT asleep or waking (R130). -/
theorem haltLane_asleep (hc : (s.lane l).condition = .sleeping ∨ (s.lane l).condition = .waking) :
    haltLane l s = accept [] (setResume l .halted s) := by
  rcases hc with hc | hc <;> simp only [haltLane, hc]

theorem haltLane_refuses
    (hc : (s.lane l).condition = .halted ∨ (s.lane l).condition = .halting ∨ (s.lane l).condition = .sleepPending) :
    haltLane l s = refuse .badState s := by
  rcases hc with hc | hc | hc <;> simp only [haltLane, hc]

/-- Settles O18: the entry of the request, by the condition of the lane. -/
theorem laneHaltByCondition : Obligations.LaneHaltByCondition := by
  intro s tag l h L c f
  have entry {status fields u} (hk : haltLane l (s.onHli Hli.popBuffer) = (u.onHli Hli.popBuffer, ⟨status, fields⟩)) :
      Answers c f s status fields u := answers_of_laneAlone h rfl rfl (by decide) hk
  exact ⟨fun t hc ht => entry (haltLane_busy (s := s.onHli Hli.popBuffer) hc ht),
    fun hc ht => entry (haltLane_idle (s := s.onHli Hli.popBuffer) hc ht),
    fun hc => entry (haltLane_asleep (s := s.onHli Hli.popBuffer) hc),
    fun hc => entry (haltLane_refuses (s := s.onHli Hli.popBuffer) hc)⟩

/-! ## LANE_SLEEP -/

/-- The sleep call as it begins (R45, R47). -/
def Transaction.sleepCall : Transaction := { Transaction.begin .sleepCall 0 .published with sendData := some [0x5A#8] }

theorem beginSleepCall_eq (l : LaneId) (s : State) : beginSleepCall l s = s.setLane l ((s.lane l).begun .sleepCall) := rfl

/-- A lane engine that enters SLEEP_PENDING, up to the sleep call (R118). -/
def Lane.sleepPending (L : Lane) (resume : Resume) : Lane := { L with condition := .sleepPending, resume }

/-- Entry into SLEEP_PENDING, where `L` is the lane before it: a transaction in progress goes on, and otherwise the sleep call begins
(R118). -/
theorem enterSleepPending_eq {L : Lane} (h : s.lane l = L) (resume : Resume) : enterSleepPending l resume s =
    { s.setLane l (if L.transaction.isSome then L.sleepPending resume else (L.sleepPending resume).begun .sleepCall) with
      reports := s.reports.handOver (.laneChange l L.condition.reported .sleepPending .request) } := by
  subst h
  have entered : changeCondition l .sleepPending .request (setResume l resume s)
      = (s.setLane l ((s.lane l).sleepPending resume)).report
          (.laneChange l (s.lane l).condition.reported .sleepPending .request) := by
    simp only [changeCondition, setResume, State.onLane, State.lane_setLane_self, State.setLane_setLane]
    rfl
  have busy : ((s.lane l).sleepPending resume).transaction = (s.lane l).transaction := rfl
  simp only [enterSleepPending, entered, State.busy, State.lane_report, State.lane_setLane_self, busy, beginSleepCall_eq,
    State.setLane_report, State.setLane_setLane]
  split <;> rfl

/-- LANE_SLEEP on a HALTED lane (R118). -/
theorem sleepLane_halted (hc : (s.lane l).condition = .halted) (ht : (s.lane l).transaction = none) :
    sleepLane l s = accept [] { s.setLane l (((s.lane l).sleepPending .halted).begun .sleepCall) with
      reports := s.reports.handOver (.laneChange l .halted .sleepPending .request) } := by
  simp only [sleepLane, hc, enterSleepPending_eq rfl, ht, Option.isSome_none, Bool.false_eq_true, if_false]
  rfl

/-- LANE_SLEEP on a RUNNING lane forbids follow-ups and abandons the round before the lane changes its condition (R61, R83). -/
theorem sleepLane_running (hc : (s.lane l).condition = .running) :
    sleepLane l s = accept [] (enterSleepPending l .running (s.setLane l { s.lane l with
      transaction := (s.lane l).transaction.map fun t => { t with followUpsForbidden := true }
      round := (s.lane l).round.abandoned })) := by
  simp only [sleepLane, hc, forbidFollowUps, State.onLane, resetRound_eq (State.lane_setLane_self ..), State.setLane_setLane]

/-- LANE_SLEEP on a RUNNING lane with no transaction in progress (R83, R118). -/
theorem sleepLane_idle (hc : (s.lane l).condition = .running) (ht : (s.lane l).transaction = none) :
    sleepLane l s = accept []
      { s.setLane l ((Lane.sleepPending { s.lane l with round := (s.lane l).round.abandoned } .running).begun .sleepCall) with
        reports := s.reports.handOver (.laneChange l .running .sleepPending .request) } := by
  rw [sleepLane_running hc, enterSleepPending_eq (State.lane_setLane_self ..)]
  simp only [ht, hc, Option.map_none, Option.isSome_none, Bool.false_eq_true, if_false, State.setLane_setLane]
  rfl

/-- LANE_SLEEP on a RUNNING lane with a transaction in progress (R61, R83, R118). -/
theorem sleepLane_busy (hc : (s.lane l).condition = .running) (ht : (s.lane l).transaction = some t) :
    sleepLane l s = accept []
      { s.setLane l (Lane.sleepPending
          { s.lane l with
            transaction := some { t with followUpsForbidden := true }, round := (s.lane l).round.abandoned } .running) with
        reports := s.reports.handOver (.laneChange l .running .sleepPending .request) } := by
  rw [sleepLane_running hc, enterSleepPending_eq (State.lane_setLane_self ..)]
  simp only [ht, hc, Option.map_some, Option.isSome_some, if_true, State.setLane_setLane]
  rfl

theorem sleepLane_refuses (hh : (s.lane l).condition ≠ .halted) (hr : (s.lane l).condition ≠ .running) :
    sleepLane l s = refuse .badState s := by
  unfold sleepLane
  split
  · exact absurd ‹_› hh
  · exact absurd ‹_› hr
  all_goals rfl

/-- Settles O20: a HALTED and a RUNNING lane enter SLEEP_PENDING, and the transaction in progress decides whether the call begins. -/
theorem laneSleepBeginsTheSleepCall : Obligations.LaneSleepBeginsTheSleepCall := by
  intro s tag l h L c f call line
  have entry {status fields u} (hk : sleepLane l (s.onHli Hli.popBuffer) = (u.onHli Hli.popBuffer, ⟨status, fields⟩)) :
      Answers c f s status fields u := answers_of_laneAlone h rfl rfl (by decide) hk
  exact ⟨fun hc ht => entry (sleepLane_halted (s := s.onHli Hli.popBuffer) hc ht),
    fun hc ht => entry (sleepLane_idle (s := s.onHli Hli.popBuffer) hc ht),
    fun t hc ht => entry (sleepLane_busy (s := s.onHli Hli.popBuffer) hc ht),
    fun hh hr => entry (sleepLane_refuses (s := s.onHli Hli.popBuffer) hh hr)⟩

/-! ## READ_LANE_STATUS and CLEAR_CAPTURE -/

theorem readLaneStatus_of_flag {option : Byte} {clear : Bool} (hf : flagOf option = some clear) :
    readLaneStatus [byte l.val, option] s = accept (laneFields (s.lane l))
      (if clear then s.setLane l { s.lane l with counts := { good := 0, silent := 0, faulty := 0 } } else s) := by
  simp only [readLaneStatus, withLane, laneOf_byte, hf]
  rfl

theorem readLaneStatus_refuses {option : Byte} (h : 2 ≤ option.toNat) :
    readLaneStatus [byte l.val, option] s = refuse .badValue s := by
  simp only [readLaneStatus, withLane, laneOf_byte, flagOf_of_le h]

theorem Resume.condition_code (r : Resume) : r.condition.code = if r = .running then 1 else 0 := by
  cases r <;> rfl

/-- Settles O22: the fields are read off the lane before anything is cleared. -/
theorem laneStatusAndCapture : Obligations.LaneStatusAndCapture := by
  intro s tag option l L block count fields body
  have hblock : captureBlock L.capture L.faultsSince = block := by
    simp only [block, captureBlock]
    cases L.capture <;> rfl
  have hcount : countField = count := by funext x; cases x <;> rfl
  have hfields : laneFields L = fields := by
    simp only [laneFields, fields, hblock, hcount, Resume.condition_code]
    rfl
  refine ⟨fun h => ?_, fun h => answers_of_laneAlone h rfl rfl (by decide) ?_⟩
  · have entry {status fields u}
        (hk : readLaneStatus body (s.onHli Hli.popBuffer) = (u.onHli Hli.popBuffer, ⟨status, fields⟩)) :
        Answers (.readLaneStatus tag body) ⟨0x15, tag, body⟩ s status fields u :=
      answers_of_act h (act := checkLength 0x15 readLaneStatus) rfl
        ((if_pos (rfl : bodyLengthOk 0x15 2 = true)).trans hk) (.inl (by simp))
    refine ⟨fun ho => entry ?_, fun ho => entry ?_, fun ho => entry (readLaneStatus_refuses ho)⟩
    · rw [readLaneStatus_of_flag (clear := false) (by rw [ho]; rfl), ← hfields]
      rfl
    · rw [readLaneStatus_of_flag (clear := true) (by rw [ho]; rfl), ← hfields]
      rfl
  · rw [← hblock]
    rfl

end Sys2Proof.Machine
end

section
/-!
The ending of a transaction in full: the state that its command ends it from, the reports of its stages, and what the condition of the lane
then makes of it (R53, R58 to R60, R78, R82 to R84, R87, R117, R119, R125, R126).
-/

namespace Sys2Proof.Machine

open Sys2Proof

variable {l : LaneId} {s : State} {t : Transaction} {o : TxOutcome} {cell bit : Nat}

/-! ## The reports of the stages -/

theorem Reported.append {s u v : State} {a b : List Report} (h : Reported s u a) (k : Reported u v b) : Reported s v (a ++ b) := by
  unfold Reported at *
  rw [k, h, List.foldl_append]

theorem reports_copyRoute (data : List Byte) (s : State) (r : Route) : (copyRoute data s r).reports = s.reports := by
  unfold copyRoute
  split
  · split <;> rfl
  · rfl

theorem reports_feedRoutes (src : SlotRef) (data : List Byte) (s : State) : (feedRoutes src data s).reports = s.reports :=
  List.foldlRecOn (motive := fun u : State => u.reports = s.reports) _ _ rfl fun u hu r _ => (reports_copyRoute data u r).trans hu

theorem ReportMode.reports_iff (m : ReportMode) (attention changed : Bool) :
    m.reports attention changed = true ↔ m = .every ∨ attention = true ∨ m = .onChange ∧ changed = true := by
  cases m <;> simp [ReportMode.reports]

/-- A report that is handed over under a condition. -/
theorem reports_ite (p : Prop) [Decidable p] (s : State) (r : Report) :
    (if p then s.report r else s).reports = (if p then [r] else []).foldl ReportQueue.handOver s.reports := by
  split <;> rfl

/-- The reports of an ending on a polled slot (R9 to R13). -/
theorem reported_endPolled (ref : SlotRef) (r : PolledRec) (t : Transaction) (o : TxOutcome) (backlog : Bool) (s : State) :
    Reported s (endPolled ref { r with lastOutcome := some o } o t.delivery s) (slotReports ref (.polled r) t o backlog) := by
  unfold Reported endPolled
  split
  · simp only [acceptPolled, reports_feedRoutes, reports_ite, State.reports_setSlot, slotReports, ReportMode.reports_iff,
      List.foldl_append, decide_eq_true_eq]
    rfl
  · simp only [missPolled, slotReports, bump]
    by_cases hp : r.presence = .present
    · by_cases hm : r.absenceLimit ≤ min (r.missCount + 1) 15 <;> simp [hp, hm]
    · simp [hp]
  · simp only [slotReports, State.reports_setSlot]
    split <;> simp_all

/-- The reports of an ending on a contended slot (R9 to R11). -/
theorem reported_endContended (ref : SlotRef) (r : ContendedRec) (t : Transaction) (o : TxOutcome) (backlog : Bool) (s : State) :
    Reported s (endContended ref { r with lastOutcome := some o } o t.delivery backlog s)
      (slotReports ref (.contended r) t o backlog) := by
  unfold Reported endContended
  split
  · simp only [acceptContended, reports_feedRoutes, reports_ite, State.reports_setSlot, slotReports, ReportMode.reports_iff,
      Bool.or_eq_true, decide_eq_true_eq]
    rfl
  · simp only [slotReports, State.reports_setSlot]
    split <;> simp_all

/-- What the Slot Table reports at an ending, whatever flag a slot that is not contended is given (R9 to R13). -/
theorem reported_takeEnding {ref : SlotRef} {followUp backlog : Bool}
    (hb : ∀ r, s.slot ref = .contended r → backlog = backlogAfter r.backlog o t.pendingResult followUp) :
    Reported s (takeEnding ref o t.delivery t.pendingResult followUp s) (slotReports ref (s.slot ref) t o backlog) := by
  unfold takeEnding
  split <;> rename_i h
  · simp only [h, slotReports]
    rfl
  · rw [h]
    exact reported_endPolled ..
  · rw [h, hb _ h, ← settledBacklog_eq]
    exact reported_endContended ..
  · simp only [h, slotReports]
    rfl

theorem reported_captureFault (l : LaneId) (o : TxOutcome) (slot : SlotId) (cell bit : Nat) (s : State) :
    Reported s (captureFault l o slot cell bit s) (captureReports (s.lane l) l o slot cell bit) := by
  unfold Reported captureFault captureReports
  cases o.faulty
  · rfl
  · cases hc : (s.lane l).capture <;> rfl

theorem reported_completeOneShot (l : LaneId) (t : Transaction) (o : TxOutcome) (s : State) :
    Reported s (completeOneShot l t o s) (oneShotReports l t o) := by
  unfold Reported completeOneShot oneShotReports
  cases t.oneShot with
  | none => rfl
  | some completion =>
    obtain ⟨handle, kind⟩ := completion
    by_cases h : kind = .poll ∧ o = .done
    · simp only [if_pos h, List.foldl_cons, List.foldl_nil, State.reports_report]
    · simp only [if_neg h, List.foldl_cons, List.foldl_nil, State.reports_report]

theorem Transaction.followsUp_eq_true_iff (t : Transaction) (o : TxOutcome) : t.followsUp o = true ↔ FollowsUp t o := by
  have allowed : 1 ≤ t.allowance.getD 0 ↔ ∃ n, t.allowance = some n ∧ 1 ≤ n := by cases t.allowance <;> simp
  rw [t.followsUp_iff, allowed, FollowsUp]

/-! ## The stages -/

/-- Stages 2 to 7 of an ending, and the removal of the record (R53, R78). -/
def endingStages (l : LaneId) (t : Transaction) (o : TxOutcome) (cell bit : Nat) (s : State) : State :=
  markWorked l ((completeOneShot l t o (captureFault l o t.slot cell bit (countEnding l o (takeEnding ⟨l, t.slot⟩ o t.delivery
    t.pendingResult (t.followsUp o) (settleLine l o s))))).onLane l fun L => { L with transaction := none })

theorem endTransaction_eq_afterEnding (ht : (s.lane l).transaction = some t) :
    endTransaction l o cell bit s = afterEnding l t o (t.followsUp o) (endingStages l t o cell bit s) := by
  simp only [endTransaction, ht]
  rfl

theorem lane_endingStages : (endingStages l t o cell bit s).lane l = (s.lane l).ended t o cell bit := by
  simp only [endingStages, State.lane_markWorked, State.lane_onLane_self, State.lane_completeOneShot, State.lane_captureFault, countEnding,
    State.lane_takeEnding, settleLine, Lane.onLine]
  rfl

/-- The round of an ended lane that is not RUNNING, and of one whose active schedule is empty, is as it was (R78, log entry 10). -/
theorem Lane.round_ended_same (L : Lane) (t : Transaction) (o : TxOutcome) (cell bit : Nat)
    (h : L.condition ≠ .running ∨ L.schedules.active = []) : (L.ended t o cell bit).round = L.round := by
  rcases h with h | h <;> simp [Lane.ended, h]

/-- The round of an ended RUNNING lane has worked, where its active schedule holds entries (R78, R89). -/
theorem Lane.round_ended_worked (L : Lane) (t : Transaction) (o : TxOutcome) (cell bit : Nat) (hc : L.condition = .running)
    (ha : L.schedules.active ≠ []) : (L.ended t o cell bit).round = { L.round with worked := true } := by
  simp [Lane.ended, hc, ha]

/-- The stages of an ending hand its reports over, in their order (R53). -/
theorem reported_endingStages : Reported s (endingStages l t o cell bit s) (endingReports s l t o cell bit (t.followsUp o)) := by
  unfold endingStages endingReports
  have lane := State.lane_takeEnding (settleLine l o s) l ⟨l, t.slot⟩ o t.delivery t.pendingResult (t.followsUp o)
  have table {backlog : Bool} := reported_takeEnding (s := settleLine l o s) (ref := ⟨l, t.slot⟩) (t := t) (o := o)
    (followUp := t.followsUp o) (backlog := backlog)
  generalize takeEnding ⟨l, t.slot⟩ o t.delivery t.pendingResult (t.followsUp o) (settleLine l o s) = u at lane table
  have captured := reported_captureFault l o t.slot cell bit (countEnding l o u)
  have completed := reported_completeOneShot l t o (captureFault l o t.slot cell bit (countEnding l o u))
  have captures : captureReports ((countEnding l o u).lane l) l o t.slot cell bit = captureReports (s.lane l) l o t.slot cell bit := by
    simp only [countEnding, State.lane_onLane_self, lane, settleLine, Lane.onLine, captureReports]
  rw [captures] at captured
  refine Reported.append (u := captureFault l o t.slot cell bit (countEnding l o u))
    (Reported.append (u := u) (table ?_) captured) completed
  intro r hr
  have hr : s.slot ⟨l, t.slot⟩ = .contended r := hr
  rw [hr]

/-! ## The state that a command ends the transaction from -/

/-- A state whose lane differs in its transaction record and its line alone. -/
def State.ending (s : State) (l : LaneId) (t : Transaction) (x : LineState) : State :=
  s.setLane l { s.lane l with transaction := some t, line := x }

theorem State.setLane_line_eq_ending (ht : (s.lane l).transaction = some t) (x : LineState) :
    s.setLane l { s.lane l with line := x } = s.ending l t x := by
  rw [State.ending, ← ht]

theorem State.onLine_eq_ending (ht : (s.lane l).transaction = some t) (f : LineState → LineState) :
    s.onLine l f = s.ending l t (f (s.lane l).line) := s.setLane_line_eq_ending ht _

theorem inPhase_eq {phase : Phase} {k : Transaction → Host.Outcome State Fault Refusal} (ht : (s.lane l).transaction = some t)
    (hp : t.phase = phase) : inPhase l phase s k = k t := by
  simp only [inPhase, ht, hp, if_true]

/-- A cell whose stop bit is dominant ends the transaction, whichever cell is awaited (R33). -/
theorem receiveCell_framing {awaited : Transaction → Bool} {cell : Samples 9}
    {check : LaneId → Transaction → Byte → State → Host.Outcome State Fault Refusal} (ht : (s.lane l).transaction = some t)
    (hp : t.phase = .receive) (ha : awaited t = true)
    (hfit : (s.lane l).line.fits (cell.levels (s.lane l).config.sampleFilter) = true)
    (hstop : (cell.levels (s.lane l).config.sampleFilter).getLsbD 8 = false) :
    ∃ x, receiveCell l awaited cell s check = .next (endTransaction l .framingError t.cellIndex 9 (s.ending l t x)) := by
  have dominant : cellStopDominant (cell.levels (s.lane l).config.sampleFilter) = true := by
    simpa [cellStopDominant, BitVec.msb_eq_getLsbD_last] using hstop
  rw [receiveCell_eq ht hp ha hfit, takeCell_of_dominant l s t _ dominant, State.onLine_eq_ending ht]
  exact ⟨_, rfl⟩

/-- A cell whose stop bit is recessive is checked, with only the line changed (R33). -/
theorem receiveCell_checks {awaited : Transaction → Bool} {cell : Samples 9} {v : Byte}
    {check : LaneId → Transaction → Byte → State → Host.Outcome State Fault Refusal} (ht : (s.lane l).transaction = some t)
    (hp : t.phase = .receive) (ha : awaited t = true) (hv : cell.levels (s.lane l).config.sampleFilter = 1#1 ++ v)
    (hfit : (s.lane l).line.fits (1#1 ++ v) = true) :
    ∃ x, receiveCell l awaited cell s check = check l t v (s.ending l t x) := by
  rw [receiveCell_eq ht hp ha (hv ▸ hfit), hv, takeCell_of_recessive, State.setLane_line_eq_ending ht]
  exact ⟨_, rfl⟩

/-- A bit of the call or of the publish that reads otherwise than it was sent ends the transaction at its place (R41, R42). -/
theorem readbackError_ends {ahead : Nat} {read : Samples 1} {recessive : Bool} (ht : (s.lane l).transaction = some t)
    (hbit : t.levelsSent[(s.lane l).line.sent + ahead]? = some recessive)
    (hread : read.levels (s.lane l).config.sampleFilter = 0#1 ↔ recessive = true)
    (hplace : t.placeSent ((s.lane l).line.sent + ahead) = (cell, bit)) :
    ∃ x, exec (.readbackError l ahead read) s = .next (endTransaction l .readbackError cell bit (s.ending l t x)) := by
  have : exec (.readbackError l ahead read) s = execReadbackError l ahead read s := rfl
  simp only [this, execReadbackError, ht, hbit, (dominant_eq_iff ..).mpr hread, if_true, failReadback, hplace,
    State.onLine_eq_ending ht]
  exact ⟨_, rfl⟩

/-- A command that ends a transaction changes at most its record and the line before the ending. -/
theorem Ends.exec_eq {c : Instr} (h : Ends s l c t o cell bit) :
    ∃ x, exec c s = .next (endTransaction l o cell bit (s.ending l t x)) := by
  cases h with
  | noResponse _ ht hp =>
    have : exec (.responseTimeout l) s = .next (endTransaction l .noResponse 0 0 (s.onLine l fun x =>
      x.recessiveFor ((s.lane l).config.responseTimeout - x.waited))) := inPhase_eq ht hp
    rw [this, State.onLine_eq_ending ht]
    exact ⟨_, rfl⟩
  | framing _ _ cell ht hp hc hfit hstop =>
    rcases hc with ⟨rfl, ha⟩ | ⟨rfl, ha⟩ | ⟨rfl, ha⟩ | ⟨rfl, ha⟩ <;> exact receiveCell_framing ht hp ha hfit hstop
  | tagError _ cell v ht hp ha hv hfit hbad =>
    obtain ⟨x, taken⟩ := receiveCell_checks (check := takeTag) ht hp ha hv hfit
    exact ⟨x, taken.trans (by rw [takeTag, tagOfCell_eq_none v hbad])⟩
  | headerError _ cell v ht hp ha hv hfit hbad =>
    obtain ⟨x, taken⟩ := receiveCell_checks (check := takeHeader) ht hp ha hv hfit
    exact ⟨x, taken.trans (by rw [takeHeader, headerOfCell_eq_none v hbad])⟩
  | lengthMismatch _ cell rule length attention ht hp ha hlen hv hfit hrule hadmits =>
    obtain ⟨x, taken⟩ := receiveCell_checks (check := takeHeader) ht hp ha hv hfit
    refine ⟨x, taken.trans ?_⟩
    simp only [takeHeader, headerOfCell_headerCell length hlen, State.ending, State.slot_setLane, hrule, hadmits, Bool.false_eq_true,
      if_false]
  | check _ cell v ht hp ha hk hv hfit =>
    obtain ⟨x, taken⟩ := receiveCell_checks (check := takeCheck) ht hp ha hv hfit
    refine ⟨x, taken.trans ?_⟩
    simp only [takeCheck, if_neg hk, beq_iff_eq]
  | gapTimeout _ ht hp hbehind hcell =>
    have behind : (t.tag.isNone && t.header.isNone || (s.lane l).line.cell.isSome) = false := by
      rcases hbehind with h | h <;> simp [hcell, Option.isNone_eq_false_iff.mpr h]
    have : exec (.gapTimeout l) s = .next (endTransaction l .gapTimeout t.cellIndex 0 (s.onLine l fun x =>
      x.recessiveFor ((s.lane l).config.gapLimit - x.waited))) := (inPhase_eq ht hp).trans (if_neg (by simp [behind]))
    rw [this, State.onLine_eq_ending ht]
    exact ⟨_, rfl⟩
  | window t window ht hp =>
    have : exec (.pendingWindowEnd l window) s = .next (endWindow l t (window.dominant (s.lane l).config.sampleFilter) s) :=
      inPhase_eq ht hp
    rw [this]
    simp only [endWindow, dominant_iff]
    exact ⟨_, rfl⟩
  | published _ ht hp =>
    have : exec (.publishComplete l) s = .next (completePublish l t s) := inPhase_eq ht hp
    rw [this, completePublish, State.onLine_eq_ending ht]
    exact ⟨_, rfl⟩
  | readbackCall _ ahead read recessive ht hp hbit hread =>
    rw [← levelsSent_call hp] at hbit
    exact readbackError_ends ht hbit hread (placeSent_call hp _)
  | readbackSend _ ahead read recessive ht hp hk hbit hread =>
    rw [← levelsSent_send hp hk] at hbit
    exact readbackError_ends ht hbit hread (placeSent_send hp _)
  | stuck _ ht hp =>
    have : exec (.stuckFault l) s = raiseStuck l s := rfl
    simp only [this, raiseStuck, ht, hp, if_true, State.onLine_eq_ending ht]
    exact ⟨_, rfl⟩

/-- A command that ends a transaction answers with what the condition of the lane makes of it, behind stages that leave the lane engine
ended and have handed the reports over. -/
theorem Ends.exec_eq_afterEnding {c : Instr} (h : Ends s l c t o cell bit) :
    ∃ v x, exec c s = .next (afterEnding l t o (t.followsUp o) v)
      ∧ v.lane l = ((s.lane l).onLine fun _ => x).ended t o cell bit
      ∧ Reported s v (endingReports s l t o cell bit (t.followsUp o)) := by
  obtain ⟨x, hexec⟩ := h.exec_eq
  have ending : (s.ending l t x).lane l = { s.lane l with transaction := some t, line := x } := s.lane_setLane_self ..
  refine ⟨endingStages l t o cell bit (s.ending l t x), x, ?_, ?_, ?_⟩
  · rw [hexec, endTransaction_eq_afterEnding (by rw [ending])]
  · rw [lane_endingStages, ending]
    rfl
  · have reports : endingReports (s.ending l t x) l t o cell bit (t.followsUp o) = endingReports s l t o cell bit (t.followsUp o) := by
      simp only [endingReports, captureReports, ending]
      rfl
    have stages := reported_endingStages (s := s.ending l t x) (l := l) (t := t) (o := o) (cell := cell) (bit := bit)
    rw [reports] at stages
    exact stages

/-! ## Follow-ups -/

/-- Settles O46: a follow-up is the whole of the last stage, so the lane is the ended one with the follow-up begun. -/
theorem followUpsBeginAtOnce : Obligations.FollowUpsBeginAtOnce := by
  intro s l c t o cell bit h hf L
  obtain ⟨v, x, hexec, hlane, hreports⟩ := h.exec_eq_afterEnding
  obtain ⟨-, -, -, -, -, hforbid⟩ := id hf
  rw [(t.followsUp_eq_true_iff o).mpr hf] at hexec hreports
  have lane : (afterEnding l t o true v).lane l = Lane.begun ((L.onLine fun _ => x).ended t o cell bit)
      { Transaction.begin .followUp t.slot .contended with allowance := t.allowance.map (· - 1), followUpsForbidden := false } := by
    rw [← hlane, ← hforbid]
    exact v.lane_begin ..
  refine ⟨_, hexec, ?_⟩
  rw [lane]
  refine ⟨rfl, rfl, rfl, rfl, rfl, fun hc ha => ?_, fun ha => ?_, hreports⟩
  · exact congrArg RoundState.worked (L.round_ended_worked t o cell bit hc ha)
  · exact congrArg RoundState.worked (L.round_ended_same t o cell bit (.inr ha))

/-! ## The choice comes to an end -/

/-- A choice has been made: a transaction is in progress, or nothing may run (R87). -/
def Lane.Settled (L : Lane) : Prop :=
  L.transaction.isSome ∨ L.oneShots = [] ∧ (L.schedules.active = [] ∨ L.round.pause.isSome)

theorem settled_beginOneShot (h : (s.lane l).oneShots ≠ []) : ((beginOneShot l s).lane l).Settled := by
  unfold beginOneShot
  split
  · exact absurd ‹_› h
  · rw [State.lane_begin]
    exact .inl rfl

/-- A round that ran nothing ends in a pause, or onto an empty schedule (R80, R82). -/
theorem Lane.settled_roundEnded {L : Lane} (ho : L.oneShots = []) (hw : L.round.worked = false) : L.roundEnded.Settled := by
  refine .inr ⟨ho, ?_⟩
  by_cases ha : L.swapped.active = []
  · exact .inl ha
  · exact .inr (by simp [Lane.roundEnded, hw, ha])

/-- What follows the entries of a choice, where none of them has begun: a one-shot begins, or a round ends and the choice goes on, or
nothing may run (steps 4 to 6 of R87). -/
theorem settled_chooseFrom {n : Nat} {L : Lane} {u : State}
    (hidle : u.busy l = false → ∃ p, u.lane l = { L with round := { L.round with position := p } })
    (hround : u.busy l = false → L.oneShots = [] → L.schedules.active ≠ [] → L.round.pause = none →
      ((chooseIn n l (endRound l u)).lane l).Settled) :
    ((chooseFrom n l L u).lane l).Settled := by
  unfold chooseFrom
  split
  · exact .inl ‹_›
  · rename_i hb
    have hb : u.busy l = false := by simpa using hb
    obtain ⟨p, hp⟩ := hidle hb
    split
    · rename_i ho
      exact settled_beginOneShot (by rw [hp]; simpa using ho)
    · rename_i ho
      have ho : L.oneShots = [] := by simpa using ho
      split
      · rename_i hr
        have hr : L.schedules.active ≠ [] ∧ L.round.pause = none := by simpa using hr
        exact hround hb ho hr.1 hr.2
      · rename_i hr
        rw [hp]
        refine .inr ⟨ho, ?_⟩
        simpa [or_iff_not_imp_left, Option.isSome_iff_ne_none] using hr

/-- A choice that may still begin two rounds, or one after a round that has worked nothing, comes to an end: the round that it begins has
worked nothing, so the end of that one is a pause (R80, R87). -/
theorem settled_chooseIn (n : Nat) {s : State} (ht : (s.lane l).transaction = none)
    (hn : (s.lane l).Settled ∨ 1 ≤ n ∧ (s.lane l).round.worked = false ∨ 2 ≤ n) : ((chooseIn n l s).lane l).Settled := by
  induction n generalizing s with
  | zero => exact hn.resolve_right (by omega)
  | succ n ih =>
    rw [chooseIn_succ rfl]
    split
    · rename_i ho
      exact settled_beginOneShot fun he => by simp [he] at ho
    · generalize hu : (if (s.lane l).round.pause.isNone then
          considerEntries l ((s.lane l).schedules.active.drop (s.lane l).round.position) s else s) = u
      have idle : u.busy l = false → ∃ p, u.lane l = { s.lane l with round := { (s.lane l).round with position := p } } := by
        rw [← hu]
        split
        · exact fun hb => considerEntries_idle l _ s hb (by simp [State.busy, ht])
        · exact fun _ => ⟨_, rfl⟩
      refine settled_chooseFrom idle fun hb ho ha hpause => ?_
      obtain ⟨p, hp⟩ := idle hb
      refine ih ?_ ?_ <;> rw [State.lane_endRound, hp]
      · exact ht
      · rcases hn with hs | ⟨-, hw⟩ | hn
        · simp [Lane.Settled, ht, ha, hpause] at hs
        · exact .inl (Lane.settled_roundEnded ho hw)
        · exact .inr (.inl ⟨by omega, rfl⟩)

theorem settled_choose (ht : (s.lane l).transaction = none) : ((choose l s).lane l).Settled :=
  settled_chooseIn 3 ht (.inr (.inr (by omega)))

/-! ## What the condition of the lane makes of an ending -/

/-- The readback-error run that an ending leaves has reached three exactly where it was the third in a row (R55). -/
theorem Lane.three_le_readbackRun_ended (L : Lane) :
    3 ≤ (L.ended t o cell bit).readbackRun ↔ o = .readbackError ∧ 2 ≤ L.readbackRun := by
  by_cases ho : o = .readbackError
  · simp only [Lane.ended, ho, if_true, bump, true_and]
    omega
  · simp [Lane.ended, ho]

/-- A stuck line, or a third readback error in a row, takes the lane to FAULTED (R55, R125). -/
theorem afterEnding_faults (h : o = .lineStuck ∧ (s.lane l).readbackRun < 3 ∨ o ≠ .lineStuck ∧ 3 ≤ (s.lane l).readbackRun) :
    afterEnding l t o false s = enterFaulted l (if o = .lineStuck then .stuck else .readback) s := by
  rcases h with ⟨ho, hr⟩ | ⟨ho, hr⟩
  · simp only [afterEnding, Bool.false_eq_true, if_false, ho, if_true, if_neg (Nat.not_le_of_lt hr)]
  · simp only [afterEnding, Bool.false_eq_true, if_false, if_neg ho, if_pos hr]

/-- Without a fault the condition of the lane decides (R53). -/
theorem afterEnding_acts {k : Condition} (hr : ¬ 3 ≤ (s.lane l).readbackRun) (ho : o ≠ .lineStuck) (hk : (s.lane l).condition = k) :
    (k = .running → afterEnding l t o false s = choose l (swapIfEmpty l s))
      ∧ (k = .halting → afterEnding l t o false s = enterHalted l .request (resetRound l s))
      ∧ (k = .sleepPending → afterEnding l t o false s = if t.source = .sleepCall ∧ o = .done then s else beginSleepCall l s) := by
  refine ⟨?_, ?_, ?_⟩ <;> rintro rfl <;> simp only [afterEnding, Bool.false_eq_true, if_false, if_neg hr, if_neg ho, hk]

theorem reported_enterFaulted (l : LaneId) (cause : Cause) (s : State) : Reported s (enterFaulted l cause s)
    (.laneChange l (s.lane l).condition.reported .faulted cause :: (s.lane l).completions l .laneFault) := by
  rw [Reported, enterFaulted_eq cause rfl]

theorem Condition.reported_eq (c : Condition) : c.reported = if c = .halting then .running else c := by
  cases c <;> rfl

theorem reported_enterHalted_resetRound (l : LaneId) (cause : Cause) (s : State) : Reported s (enterHalted l cause (resetRound l s))
    (.laneChange l (s.lane l).condition.reported .halted cause :: (s.lane l).swapReports l) := by
  rw [Reported, enterHalted_resetRound rfl]

theorem reported_swapStaged (l : LaneId) (s : State) : Reported s (swapStaged l s) ((s.lane l).swapReports l) := by
  rw [Reported, swapStaged_eq rfl]

/-- Settles O47: the last stage of the ending, by the fault that it leads to and then by the condition of the lane. -/
theorem endingsActOnTheCondition : Obligations.EndingsActOnTheCondition := by
  intro s l c t o cell bit h hf L faults reports
  obtain ⟨v, x, hexec, hlane, hreports⟩ := h.exec_eq_afterEnding
  rw [show t.followsUp o = false from Bool.eq_false_iff.mpr fun hn => hf ((t.followsUp_eq_true_iff o).mp hn)] at hexec hreports
  have run : 3 ≤ (v.lane l).readbackRun ↔ o = .readbackError ∧ 2 ≤ L.readbackRun := by
    rw [hlane]
    exact Lane.three_le_readbackRun_ended _
  have condition : (v.lane l).condition = L.condition := by rw [hlane]; rfl
  have swapReports : (v.lane l).swapReports l = L.swapReports l := by rw [hlane]; rfl
  have acts (hn : ¬ faults) := afterEnding_acts (t := t) (fun hr => hn (.inr (run.mp hr))) (fun ho => hn (.inl ho)) condition
  refine ⟨_, hexec, fun hfaults => ?faulted, fun hn hc => ?halting, fun hn hc => ?sleepPending, fun hn hc => ?running⟩
  case faulted =>
    have faulted := afterEnding_faults (l := l) (s := v) (t := t) (o := o) (by
      rcases hfaults with rfl | ⟨rfl, hr⟩
      · exact .inl ⟨rfl, by simpa using run⟩
      · exact .inr ⟨nofun, run.mpr ⟨rfl, hr⟩⟩)
    have reported := reported_enterFaulted l (if o = .lineStuck then .stuck else .readback) v
    rw [condition, Condition.reported_eq, show (v.lane l).completions l .laneFault = L.completions l .laneFault by rw [hlane]; rfl]
      at reported
    have lane := congrArg (State.lane · l) (enterFaulted_eq (if o = .lineStuck then .stuck else .readback) hlane)
    simp only [State.lane_setLane_reports] at lane
    rw [faulted, lane]
    refine ⟨rfl, rfl, rfl, rfl, rfl, rfl, rfl, ?_, hreports.append reported⟩
    show (if L.condition = .running ∨ L.condition = .halting then L.round.abandoned else _) = _
    split
    · rfl
    · rename_i hc
      exact L.round_ended_same t o cell bit (.inl fun hr => hc (.inl hr))
  case halting =>
    have reported := reported_enterHalted_resetRound l .request v
    rw [condition, hc, swapReports] at reported
    have lane := congrArg (State.lane · l) (enterHalted_resetRound hlane .request)
    simp only [State.lane_setLane_reports] at lane
    rw [(acts hn).2.1 hc, lane]
    exact ⟨rfl, rfl, rfl, rfl, rfl, hreports.append reported⟩
  case sleepPending =>
    rw [(acts hn).2.2 hc]
    split
    · rw [hlane]
      exact ⟨hc, hreports, rfl⟩
    · rw [beginSleepCall_eq, State.lane_setLane_self, hlane]
      exact ⟨hc, hreports, rfl⟩
  case running =>
    have active : (v.lane l).schedules.active = L.schedules.active := by rw [hlane]; rfl
    by_cases ha : L.schedules.active = []
    · have swaps : swapIfEmpty l v = swapStaged l v := if_pos (by simp [active, ha])
      have reported := reported_swapStaged l v
      rw [swapReports] at reported
      have lane : (swapStaged l v).lane l = ((L.onLine fun _ => x).ended t o cell bit).afterSwap := by
        rw [State.lane_swapStaged, hlane]
      rw [(acts hn).1 hc, swaps]
      refine ⟨⟨swapStaged l v, rfl, ?_⟩, settled_choose (by rw [lane]; rfl)⟩
      rw [lane]
      refine ⟨hc, rfl, rfl, fun hne => absurd ha hne, fun _ => ⟨rfl, ?_, hreports.append reported⟩⟩
      rw [Lane.afterSwap, Lane.round_ended_same (L.onLine fun _ => x) t o cell bit (.inr ha)]
      rfl
    · have stays : swapIfEmpty l v = v := if_neg (by simp [active, ha])
      rw [(acts hn).1 hc, stays]
      refine ⟨⟨v, rfl, ?_⟩, settled_choose (by rw [hlane]; rfl)⟩
      rw [hlane]
      exact ⟨hc, rfl, rfl, fun _ => ⟨rfl, L.round_ended_worked t o cell bit hc ha, hreports⟩, fun he => absurd he ha⟩

end Sys2Proof.Machine
end

section
/-!
What the lane engines hold together: the places taken in the entry pool and the handles of the one-shots queued and running, lane by lane
(R70, R93).
-/

namespace Sys2Proof.Machine

open Sys2Proof

variable {l : LaneId} {s t u : State}

/-! ## The lanes one by one -/

theorem State.toList_lanes (s : State) : s.lanes.toList = (List.finRange 4).map s.lane := by
  apply List.ext_getElem <;> simp [State.lane]

theorem State.lane_of_lanes (h : t.lanes = s.lanes) (m : LaneId) : t.lane m = s.lane m := by
  simp only [State.lane, h]

/-- The places taken in the entry pool (R70). -/
def State.places (s : State) : Nat := ((List.finRange 4).map fun m => (s.lane m).schedules.held).sum

/-- The places that the other lanes take. -/
def State.otherPlaces (s : State) (l : LaneId) : Nat := (((List.finRange 4).erase l).map fun m => (s.lane m).schedules.held).sum

theorem State.sum_held (s : State) : (s.lanes.toList.map fun L => L.schedules.held).sum = s.places := by
  rw [s.toList_lanes, List.map_map]; rfl

theorem State.poolFree_eq (s : State) : s.poolFree = 96 - s.places := by rw [State.poolFree, s.sum_held]

theorem State.places_eq (s : State) (l : LaneId) : s.places = (s.lane l).schedules.held + s.otherPlaces l :=
  ((List.perm_cons_erase (List.mem_finRange l)).map fun m => (s.lane m).schedules.held).sum_eq

theorem ne_of_mem_erase {m : LaneId} (h : m ∈ (List.finRange 4).erase l) : m ≠ l :=
  ((List.nodup_finRange 4).mem_erase_iff.mp h).1

theorem State.otherPlaces_congr (h : ∀ m, m ≠ l → t.lane m = s.lane m) : t.otherPlaces l = s.otherPlaces l :=
  congrArg List.sum (List.map_congr_left fun m hm => by rw [h m (ne_of_mem_erase hm)])

/-- A schedule that grows on one lane takes as many places more. -/
theorem State.places_of_held {n : Nat} (h : ∀ m, m ≠ l → t.lane m = s.lane m)
    (hl : (t.lane l).schedules.held = (s.lane l).schedules.held + n) : t.places = s.places + n := by
  rw [t.places_eq l, s.places_eq l, hl, State.otherPlaces_congr h]
  omega

/-- The handles that the other lanes hold. -/
def State.otherHandles (s : State) (l : LaneId) : List Nat := ((List.finRange 4).erase l).flatMap fun m => (s.lane m).handles

theorem State.handles_eq (s : State) : s.handles = (List.finRange 4).flatMap fun m => (s.lane m).handles := by
  rw [State.handles, s.toList_lanes, List.flatMap_map]

theorem State.handles_perm (s : State) (l : LaneId) : s.handles.Perm ((s.lane l).handles ++ s.otherHandles l) := by
  rw [s.handles_eq]
  exact (List.perm_cons_erase (List.mem_finRange l)).flatMap_right _

theorem State.otherHandles_congr (h : ∀ m, m ≠ l → t.lane m = s.lane m) : t.otherHandles l = s.otherHandles l :=
  List.flatMap_congr fun m hm => by rw [h m (ne_of_mem_erase hm)]

theorem Lane.mem_handles (L : Lane) (handle : Nat) : handle ∈ L.handles ↔
    (∃ o ∈ L.oneShots, o.handle = handle) ∨ ∃ t kind, L.transaction = some t ∧ t.oneShot = some (handle, kind) := by
  simp [Lane.handles, Option.bind_eq_some_iff]

theorem State.mem_handles (s : State) (handle : Nat) : handle ∈ s.handles ↔ ∃ l, handle ∈ (s.lane l).handles := by
  simp [s.handles_eq]

/-- A lane holds the handles of its queue and at most one more. -/
theorem Lane.length_handles_le (L : Lane) : L.handles.length ≤ L.oneShots.length + 1 := by
  rw [Lane.handles, List.length_append, List.length_map]
  exact Nat.add_le_add_left Option.length_toList_le _

/-- Far fewer handles are held than there are (R92, R93). -/
theorem LanesWf.length_handles_le (h : LanesWf s) : s.handles.length ≤ 36 := by
  rw [s.handles_eq, List.length_flatMap]
  calc ((List.finRange 4).map fun m => (s.lane m).handles.length).sum
      ≤ ((List.finRange 4).map fun _ => 9).sum :=
        List.sum_le_sum fun m _ => ((s.lane m).length_handles_le).trans (Nat.succ_le_succ (h m).queue)
    _ = 36 := rfl

/-! ## The first free handle (R93) -/

/-- The handles that follow a handle, one after the other, wrap behind 65535. -/
theorem iterate_nextNumber {n : Nat} (h : 1 ≤ n ∧ n ≤ 65535) (i : Nat) : nextNumber^[i] n = (n - 1 + i) % 65535 + 1 := by
  induction i with
  | zero => simp only [Function.iterate_zero, id]; omega
  | succ i ih =>
    rw [Function.iterate_succ_apply', ih, nextNumber]
    split <;> omega

/-- Where the handle reached is held, so is every handle on the way to it. -/
theorem mem_of_passOver_mem {held : List Nat} {fuel n : Nat} (h : passOver held fuel n ∈ held) :
    ∀ i ≤ fuel, nextNumber^[i] n ∈ held := by
  induction fuel generalizing n with
  | zero =>
    intro i hi
    obtain rfl : i = 0 := by omega
    exact h
  | succ fuel ih =>
    have held_n : n ∈ held := by
      by_contra hn
      simp only [passOver, List.contains_iff_mem, hn, if_false] at h
    simp only [passOver, List.contains_iff_mem, held_n, if_true] at h
    intro i hi
    cases i with
    | zero => exact held_n
    | succ i => exact ih h i (by omega)

theorem passOver_range {held : List Nat} {fuel n : Nat} (h : 1 ≤ n ∧ n ≤ 65535) :
    1 ≤ passOver held fuel n ∧ passOver held fuel n ≤ 65535 := by
  induction fuel generalizing n with
  | zero => exact h
  | succ fuel ih =>
    unfold passOver
    split
    · exact ih (nextNumber_range h)
    · exact h

/-- While fewer handles are held than there are, the handle issued is one that none holds: else the handles passed over would be more than
are held. -/
theorem freeHandle_not_mem {held : List Nat} {n : Nat} (h : 1 ≤ n ∧ n ≤ 65535) (hlen : held.length < 65535) :
    freeHandle held n ∉ held := by
  intro hmem
  have passed := mem_of_passOver_mem hmem
  have distinct : ((List.range (held.length + 1)).map fun i => nextNumber^[i] n).Nodup := by
    refine List.Nodup.map_on (fun i hi j hj hij => ?_) List.nodup_range
    simp only [iterate_nextNumber h, List.mem_range] at hi hj hij
    omega
  have within : ((List.range (held.length + 1)).map fun i => nextNumber^[i] n) ⊆ held := by
    intro x hx
    obtain ⟨i, hi, rfl⟩ := List.mem_map.mp hx
    exact passed i (Nat.le_of_lt_succ (List.mem_range.mp hi))
  have := (distinct.subperm within).length_le
  simp only [List.length_map, List.length_range] at this
  omega

end Sys2Proof.Machine
end

section
/-!
What most events leave: lane engines that hold no more than before, of places in the entry pool and of handles (R70, R93). Whatever a lane
engine does of itself is of that kind: a swap moves entries, and a one-shot that begins takes its handle with it.
-/

namespace Sys2Proof.Machine

open Sys2Proof

variable {l : LaneId} {s t u : State} {L M N : Lane}

/-! ## A lane engine that holds no more -/

/-- Each of the three schedules has its 48 places at most (R70). -/
structure Schedules.Bounded (x : Schedules) : Prop where
  builder : ∀ es, x.builder = some es → es.length ≤ 48
  staged : ∀ es, x.staged = some es → es.length ≤ 48
  active : x.active.length ≤ 48

/-- Lane engine `M` holds no more than `L` did: no more entries, none of its schedules past its places, and no handle that is new or held
twice. -/
structure HoldsNoMore (L M : Lane) : Prop where
  held : M.schedules.held ≤ L.schedules.held
  bounded : L.schedules.Bounded → M.schedules.Bounded
  handles : M.handles.Subperm L.handles

theorem HoldsNoMore.refl (L : Lane) : HoldsNoMore L L := ⟨Nat.le_refl _, id, .refl _⟩

theorem HoldsNoMore.trans (h : HoldsNoMore L M) (k : HoldsNoMore M N) : HoldsNoMore L N :=
  ⟨k.held.trans h.held, fun w => k.bounded (h.bounded w), k.handles.trans h.handles⟩

/-- The schedules are as they were, and the one-shots at most left. -/
theorem HoldsNoMore.of_sublist (hs : M.schedules = L.schedules) (ho : M.oneShots.Sublist L.oneShots)
    (ht : M.transaction.bind Transaction.oneShot = none
      ∨ M.transaction.bind Transaction.oneShot = L.transaction.bind Transaction.oneShot) : HoldsNoMore L M where
  held := by rw [hs]
  bounded := by rw [hs]; exact id
  handles := by
    refine List.Sublist.subperm ((ho.map _).append ?_)
    rcases ht with ht | ht <;> rw [ht]
    · exact List.nil_sublist _

/-- Neither the schedules nor the one-shots have changed. -/
theorem HoldsNoMore.of_same (hs : M.schedules = L.schedules) (ho : M.oneShots = L.oneShots) (ht : M.transaction = L.transaction) :
    HoldsNoMore L M := .of_sublist hs (ho ▸ .refl _) (.inr (congrArg (·.bind Transaction.oneShot) ht))

/-- The transaction has gone on, with the one-shot that it carries. -/
theorem HoldsNoMore.goOn {t t' : Transaction} (ht : L.transaction = some t) (hs : M.schedules = L.schedules) (ho : M.oneShots = L.oneShots)
    (ht' : M.transaction = some t') (hone : t'.oneShot = t.oneShot) : HoldsNoMore L M :=
  .of_sublist hs (ho ▸ .refl _) (.inr (by rw [ht', ht]; exact hone))

/-- A change of the schedules alone. -/
theorem HoldsNoMore.of_schedules {x : Schedules} (hh : x.held ≤ L.schedules.held) (hb : L.schedules.Bounded → x.Bounded) :
    HoldsNoMore L { L with schedules := x } := ⟨hh, hb, .refl _⟩

theorem HoldsNoMore.builderClosed : HoldsNoMore L { L with schedules := { L.schedules with builder := none } } :=
  .of_schedules (by simp [Schedules.held]) fun w => ⟨nofun, w.staged, w.active⟩

theorem HoldsNoMore.builderOpened : HoldsNoMore L { L with schedules := { L.schedules with builder := some [] } } :=
  .of_schedules (by simp [Schedules.held]) fun w => ⟨by simp, w.staged, w.active⟩

/-- A commit moves the entries of the builder into the staged place, and frees the places of the schedule staged before (R75). -/
theorem HoldsNoMore.staged {es : List Entry} (hb : L.schedules.builder = some es) :
    HoldsNoMore L { L with schedules := { L.schedules with builder := none, staged := some es } } :=
  .of_schedules (by simp [Schedules.held, hb]) fun w => ⟨nofun, by rintro _ ⟨⟩; exact w.builder es hb, w.active⟩

/-- A swap moves the entries staged into the active place, and frees the places of the schedule active before (R85). -/
theorem HoldsNoMore.swapped : HoldsNoMore L { L with schedules := L.swapped } := by
  unfold Lane.swapped
  split
  · exact .refl L
  · rename_i es hs
    exact .of_schedules (by simp [Schedules.held, hs]) fun w => ⟨w.builder, nofun, w.staged es hs⟩

theorem HoldsNoMore.begun (L : Lane) {t : Transaction} (ht : t.oneShot = none) : HoldsNoMore L (L.begun t) :=
  .of_sublist rfl (.refl _) (.inl ht)

/-- The oldest one-shot of the queue begins, and takes its handle into the transaction (R92). -/
theorem HoldsNoMore.oneShotBegun {o : OneShot} {rest : List OneShot} {t : Transaction} {kind : OneShotKind} (ho : L.oneShots = o :: rest)
    (ht : t.oneShot = some (o.handle, kind)) : HoldsNoMore L (L.oneShotBegun rest t) where
  held := Nat.le_refl _
  bounded := id
  handles := by
    have begun : (L.oneShotBegun rest t).handles = rest.map OneShot.handle ++ [o.handle] := by
      simp [Lane.handles, Lane.oneShotBegun, Lane.begun, ht]
    have queued : ((o :: rest).map OneShot.handle).Sublist L.handles := by
      rw [Lane.handles, ho]
      exact List.sublist_append_left ..
    rw [begun]
    exact (List.perm_append_singleton ..).subperm.trans queued.subperm

/-! ## A state whose lanes hold no more -/

/-- No lane engine holds more than before, and the next handle is one still. -/
structure Narrows (s t : State) : Prop where
  lane : ∀ l, HoldsNoMore (s.lane l) (t.lane l)
  next : 1 ≤ s.nextHandle ∧ s.nextHandle ≤ 65535 → 1 ≤ t.nextHandle ∧ t.nextHandle ≤ 65535

theorem Narrows.refl (s : State) : Narrows s s := ⟨fun l => .refl (s.lane l), id⟩

theorem Narrows.trans (h : Narrows s t) (k : Narrows t u) : Narrows s u :=
  ⟨fun l => (h.lane l).trans (k.lane l), fun w => k.next (h.next w)⟩

/-- The lane engines and the next handle are as they were. -/
theorem Narrows.of_lanes (hl : t.lanes = s.lanes) (hn : t.nextHandle = s.nextHandle) : Narrows s t :=
  ⟨fun l => State.lane_of_lanes hl l ▸ .refl _, by rw [hn]; exact id⟩

theorem Narrows.of_onlyLane (h : OnlyLane l s t) (hl : HoldsNoMore (s.lane l) (t.lane l)) : Narrows s t where
  lane m := by
    by_cases hm : m = l
    · subst hm; exact hl
    · rw [h.lanes m hm]; exact .refl _
  next := by rw [h.nextHandle]; exact id

theorem Narrows.onLane (s : State) {f : Lane → Lane} (h : HoldsNoMore (s.lane l) (f (s.lane l))) : Narrows s (s.onLane l f) where
  lane m := by
    rw [State.lane_onLane]
    split
    · subst m; exact h
    · exact .refl _
  next := id

theorem Narrows.onLine (l : LaneId) (s : State) (f : LineState → LineState) : Narrows s (s.onLine l f) :=
  .onLane s (.of_same rfl rfl rfl)

theorem Narrows.report (s : State) (r : Report) : Narrows s (s.report r) := .of_lanes rfl rfl

theorem Narrows.ite {p : Prop} [Decidable p] (ht : Narrows s t) (hu : Narrows s u) : Narrows s (if p then t else u) := by
  split <;> assumption

theorem subperm_flatMap {α β : Type} {f g : α → List β} (xs : List α) (h : ∀ a, (f a).Subperm (g a)) :
    (xs.flatMap f).Subperm (xs.flatMap g) := by
  induction xs with
  | nil => exact .refl _
  | cons a xs ih => simpa only [List.flatMap_cons] using (h a).append ih

theorem Narrows.places_le (h : Narrows s t) : t.places ≤ s.places := List.sum_le_sum fun m _ => (h.lane m).held

theorem Narrows.handles_subperm (h : Narrows s t) : t.handles.Subperm s.handles := by
  rw [t.handles_eq, s.handles_eq]
  exact subperm_flatMap _ fun m => (h.lane m).handles

/-- The bounds of the entry pool, schedule by schedule (R70). -/
theorem poolWf_iff (s : State) : PoolWf s ↔ s.places ≤ 96 ∧ ∀ l, (s.lane l).schedules.Bounded := by
  rw [← s.sum_held]
  exact ⟨fun h => ⟨h.total, fun l => ⟨h.builder l, h.staged l, h.active l⟩⟩,
    fun ⟨h, b⟩ => ⟨h, fun l => (b l).builder, fun l => (b l).staged, fun l => (b l).active⟩⟩

theorem Narrows.poolWf (h : Narrows s t) (w : PoolWf s) : PoolWf t := by
  rw [poolWf_iff] at w ⊢
  exact ⟨h.places_le.trans w.1, fun l => (h.lane l).bounded (w.2 l)⟩

theorem Narrows.handlesWf (h : Narrows s t) (w : HandlesWf s) : HandlesWf t where
  next := h.next w.next
  range handle hh := w.range handle (h.handles_subperm.subset hh)
  distinct := by
    obtain ⟨kept, same, sub⟩ := h.handles_subperm
    exact same.nodup_iff.mp (w.distinct.sublist sub)

/-! ## The choice and the changes of condition -/

theorem Narrows.begin (l : LaneId) (s : State) {t : Transaction} (ht : t.oneShot = none) : Narrows s (s.begin l t) :=
  .onLane s (.begun _ ht)

theorem choice_holdsNoMore (L : Lane) : ChoiceRule (HoldsNoMore L) (HoldsNoMore L) where
  rest := id
  advanced h _ := h.trans (.of_same rfl rfl rfl)
  scheduled _ _ _ h _ _ := h.trans (.of_sublist rfl (.refl _) (.inl rfl))
  oneShot _ _ _ h ho := h.trans (.oneShotBegun ho rfl)
  roundEnded h := h.trans (HoldsNoMore.trans .swapped (.of_same rfl rfl rfl))

theorem Narrows.choose (l : LaneId) (s : State) : Narrows s (choose l s) :=
  .of_onlyLane (.choose l s) ((choice_holdsNoMore _).choose (.refl _))

theorem Narrows.swapStaged (l : LaneId) (s : State) : Narrows s (swapStaged l s) := by
  refine .of_onlyLane (.swapStaged l s) ?_
  rw [State.lane_swapStaged]
  exact .trans .swapped (.of_same rfl rfl rfl)

theorem Narrows.changeCondition (l : LaneId) (s : State) (c : Condition) (cause : Cause) : Narrows s (changeCondition l c cause s) :=
  (Narrows.onLane s (.of_same rfl rfl rfl)).trans (.report ..)

theorem Narrows.resetRound (l : LaneId) (s : State) : Narrows s (resetRound l s) := .onLane s (.of_same rfl rfl rfl)

theorem Narrows.enterRunning (l : LaneId) (s : State) (cause : Cause) : Narrows s (enterRunning l cause s) :=
  (((Narrows.changeCondition ..).trans (.swapStaged ..)).trans (.resetRound ..)).trans (.choose ..)

theorem Narrows.enterHalted (l : LaneId) (s : State) (cause : Cause) : Narrows s (enterHalted l cause s) :=
  (Narrows.changeCondition ..).trans (.swapStaged ..)

theorem Narrows.enterResume (l : LaneId) (s : State) (cause : Cause) : Narrows s (enterResume l cause s) := by
  unfold Machine.enterResume
  split
  · exact .enterRunning ..
  · exact .enterHalted ..

/-- The queued one-shots are completed, and their handles are free again (R102, R103). -/
theorem Narrows.completeQueued (l : LaneId) (s : State) (o : Completion) : Narrows s (completeQueued l o s) := by
  refine .of_onlyLane (.completeQueued l s o) ?_
  rw [completeQueued_eq o rfl, State.lane_setLane_reports]
  exact .of_sublist rfl (List.nil_sublist _) (.inr rfl)

theorem Narrows.enterFaulted (l : LaneId) (s : State) (cause : Cause) : Narrows s (enterFaulted l cause s) := by
  refine .of_onlyLane (.enterFaulted l s cause) ?_
  rw [enterFaulted_eq cause rfl, State.lane_setLane_reports]
  exact .of_sublist rfl (List.nil_sublist _) (.inr rfl)

theorem Narrows.leaveFaulted (l : LaneId) (s : State) : Narrows s (leaveFaulted l s) :=
  (Narrows.onLane s (.of_same rfl rfl rfl)).trans (.enterResume ..)

/-! ## The ending of a transaction -/

theorem Narrows.afterEnding (l : LaneId) (t : Transaction) (o : TxOutcome) (followUp : Bool) (s : State) :
    Narrows s (afterEnding l t o followUp s) := by
  refine .ite (.begin l s rfl) (.ite (.enterFaulted ..) (.ite (.enterFaulted ..) ?_))
  split
  · exact (Narrows.ite (.swapStaged ..) (.refl s)).trans (.choose ..)
  · exact (Narrows.resetRound ..).trans (.enterHalted ..)
  · exact .ite (.refl s) (.begin l s rfl)
  all_goals exact .refl s

/-- The ending of a transaction frees the handle that it carries (R99). -/
theorem Narrows.endTransaction (l : LaneId) (o : TxOutcome) (cell bit : Nat) (s : State) :
    Narrows s (endTransaction l o cell bit s) := by
  refine .of_onlyLane (.endTransaction l o cell bit s) ?_
  cases ht : (s.lane l).transaction with
  | none => simp only [Machine.endTransaction, ht]; exact .refl _
  | some t =>
    obtain ⟨u, hu, lane⟩ := endTransaction_eq (o := o) (cell := cell) (bit := bit) ht
    rw [hu]
    refine HoldsNoMore.trans ?_ ((Narrows.afterEnding l t o (t.followsUp o) u).lane l)
    rw [lane]
    exact .of_sublist rfl (.refl _) (.inl rfl)

end Sys2Proof.Machine
end

section
/-!
Every event of a lane leaves lane engines that hold no more than before (R70, R93).
-/

namespace Sys2Proof.Machine

open Sys2Proof

variable {l : LaneId} {s : State} {t : Transaction}

/-! ## Bits and cells -/

/-- The transaction in progress has gone on, with the one-shot that it carries. -/
theorem Narrows.goOn {f : Lane → Lane} {t' : Transaction} (ht : (s.lane l).transaction = some t)
    (hs : (f (s.lane l)).schedules = (s.lane l).schedules) (ho : (f (s.lane l)).oneShots = (s.lane l).oneShots)
    (ht' : (f (s.lane l)).transaction = some t') (hone : t'.oneShot = t.oneShot) : Narrows s (s.onLane l f) :=
  .onLane s (.goOn ht hs ho ht' hone)

theorem Narrows.endTransaction_onLine (l : LaneId) (o : TxOutcome) (cell bit : Nat) (s : State) (f : LineState → LineState) :
    Narrows s (Machine.endTransaction l o cell bit (s.onLine l f)) := (Narrows.onLine l s f).trans (.endTransaction ..)

theorem Narrows.completeCall (ht : (s.lane l).transaction = some t) : Narrows s (completeCall l t s) := by
  unfold Machine.completeCall
  cases t.kind <;> exact .goOn ht rfl rfl rfl rfl

theorem Narrows.startCell (ht : (s.lane l).transaction = some t) : Narrows s (startCell l t s) := .goOn ht rfl rfl rfl rfl

theorem Narrows.endWindow (ht : (s.lane l).transaction = some t) (seen : Bool) : Narrows s (endWindow l t seen s) :=
  (Narrows.goOn (t' := { t with pendingResult := if seen then .seen else .notSeen }) ht rfl rfl rfl rfl).trans (.endTransaction ..)

theorem narrows_takeTag (ht : (s.lane l).transaction = some t) (v : Byte) : NextIs (Narrows s) (takeTag l t v s) := by
  unfold takeTag
  split
  · exact .next (.endTransaction ..)
  · exact .next (.goOn ht rfl rfl rfl rfl)

theorem narrows_takeHeader (ht : (s.lane l).transaction = some t) (v : Byte) : NextIs (Narrows s) (takeHeader l t v s) := by
  unfold takeHeader
  split
  · exact .next (.endTransaction ..)
  · split
    · exact .fault _
    · exact nextIs_ite (fun _ => .next (.goOn ht rfl rfl rfl rfl)) fun _ => .next (.endTransaction ..)

theorem narrows_takeData (ht : (s.lane l).transaction = some t) (v : Byte) : NextIs (Narrows s) (takeData l t v s) :=
  .next (.goOn ht rfl rfl rfl rfl)

theorem narrows_takeCheck (ht : (s.lane l).transaction = some t) (v : Byte) : NextIs (Narrows s) (takeCheck l t v s) :=
  nextIs_ite (fun _ => .next (.goOn ht rfl rfl rfl rfl)) fun _ => .next (.endTransaction ..)

theorem narrows_takeAwaited (ht : (s.lane l).transaction = some t) (v : Byte) : NextIs (Narrows s) (takeAwaited l t v s) :=
  nextIs_ite (fun _ => narrows_takeTag ht v) fun _ => nextIs_ite (fun _ => narrows_takeHeader ht v) fun _ =>
    nextIs_ite (fun _ => narrows_takeData ht v) fun _ => narrows_takeCheck ht v

theorem narrows_takeCell {check : LaneId → Transaction → Byte → State → Host.Outcome State Fault Refusal}
    (h : ∀ {u : State}, (u.lane l).transaction = some t → ∀ v, NextIs (Narrows u) (check l t v u))
    (ht : (s.lane l).transaction = some t) (levels : BitVec 9) : NextIs (Narrows s) (takeCell l t levels s check) := by
  refine nextIs_ite (fun _ => .next (.endTransaction_onLine ..)) fun _ =>
    (h ?_ _).mono fun _ => (Narrows.onLine l s fun x => x.afterCell levels).trans
  rw [State.onLine, State.lane_onLane_self]
  exact ht

theorem narrows_receiveCell {check : LaneId → Transaction → Byte → State → Host.Outcome State Fault Refusal}
    (h : ∀ {t} {u : State}, (u.lane l).transaction = some t → ∀ v, NextIs (Narrows u) (check l t v u)) (awaited : Transaction → Bool)
    (cell : Samples 9) (s : State) : NextIs (Narrows s) (receiveCell l awaited cell s check) :=
  nextIs_receiveCell fun _ levels ht _ _ => narrows_takeCell h ht levels

theorem narrows_takeBit (ht : (s.lane l).transaction = some t) (bits : List Bool) (dominant : Bool) :
    NextIs (Narrows s) (takeBit l t bits dominant s) :=
  nextIs_ite (fun _ => narrows_takeCell narrows_takeAwaited ht _) fun _ => .next (.onLine ..)

theorem narrows_readBack (ht : (s.lane l).transaction = some t) (dominant : Bool) : NextIs (Narrows s) (readBack l t dominant s) := by
  unfold readBack
  simp only
  split
  · exact .refused _
  · refine nextIs_ite (fun _ => .next (.endTransaction_onLine ..)) fun _ => ?_
    split
    · exact .next (.onLine ..)
    · exact .next (.ite (.endTransaction_onLine ..) (.completeCall ht))

/-! ## Bit times that are counted -/

theorem narrows_raiseStuck (l : LaneId) (s : State) : NextIs (Narrows s) (raiseStuck l s) := by
  have stuck := Narrows.onLine l s LineState.stuck
  unfold raiseStuck
  split
  · exact nextIs_ite (fun _ => .next (.endTransaction_onLine ..)) fun _ => .refused _
  · refine nextIs_ite (fun _ => .refused _) fun _ => ?_
    split
    · exact .next stuck
    · exact .refused _
    all_goals exact .next (stuck.trans (.enterFaulted ..))

theorem narrows_countDominant (l : LaneId) (s : State) : NextIs (Narrows s) (countDominant l s) :=
  nextIs_ite (fun _ => narrows_raiseStuck l s) fun _ => .next (.onLane s (.of_same rfl rfl rfl))

theorem Narrows.countRecessive (l : LaneId) (s : State) : Narrows s (countRecessive l s) := .onLane s (.of_same rfl rfl rfl)

theorem Narrows.waitOn (l : LaneId) (s : State) : Narrows s ((Machine.countRecessive l s).onLine l LineState.waitOn) :=
  (Narrows.countRecessive l s).trans (.onLine ..)

theorem Narrows.objectToSleep (l : LaneId) (s : State) : Narrows s (objectToSleep l s) :=
  (Narrows.onLine ..).trans (.changeCondition ..)

theorem Narrows.endResponderRun (l : LaneId) (run : Nat) (s : State) : Narrows s (endResponderRun l run s) :=
  .ite ((Narrows.onLine ..).trans (.changeCondition ..)) (.onLine ..)

theorem narrows_betweenTransactions (l : LaneId) (dominant : Bool) (s : State) :
    NextIs (Narrows s) (betweenTransactions l dominant s) := by
  refine nextIs_ite (fun _ => .next (.onLine ..)) fun _ => ?_
  split
  · exact .next (.ite (.objectToSleep ..) (.waitOn ..))
  · exact nextIs_ite (fun _ => narrows_countDominant l s) fun _ =>
      nextIs_ite (fun _ => .next (.endResponderRun ..)) fun _ => .next (.countRecessive ..)
  all_goals exact nextIs_ite (fun _ => narrows_countDominant l s) fun _ => .next (.countRecessive ..)

theorem narrows_inTransaction (ht : (s.lane l).transaction = some t) (dominant : Bool) :
    NextIs (Narrows s) (inTransaction l t dominant s) := by
  have awaits : Narrows s (if dominant then startCell l t s else (countRecessive l s).onLine l LineState.waitOn) :=
    .ite (.startCell ht) (.waitOn ..)
  unfold inTransaction
  simp only
  split
  · exact nextIs_ite (fun _ => narrows_countDominant l s) fun _ => .next (.countRecessive ..)
  · exact narrows_readBack ht dominant
  · exact narrows_readBack ht dominant
  · exact .next awaits
  · split
    · exact .next awaits
    · exact narrows_takeBit ht _ dominant
  · exact .next (.endWindow ht _)

/-! ## Every lane event -/

theorem narrows_of_laneEvent {c : Instr} (hl : c.lane = some l) : NextIs (Narrows s) (exec c s) := by
  have same {f : Lane → Lane} (hs : (f (s.lane l)).schedules = (s.lane l).schedules) (ho : (f (s.lane l)).oneShots = (s.lane l).oneShots)
      (ht : (f (s.lane l)).transaction = (s.lane l).transaction) : Narrows s (s.onLane l f) := .onLane s (.of_same hs ho ht)
  cases c <;> cases hl
  case gapWaitComplete => exact nextIs_inPhase fun t ht _ => .next (.goOn ht rfl rfl rfl rfl)
  case callComplete => exact nextIs_inPhase fun t ht _ => .next (.completeCall ht)
  case responseTimeout => exact nextIs_inPhase fun _ _ _ => .next ((same rfl rfl rfl).trans (.endTransaction ..))
  case tagCellReceived cell => exact narrows_receiveCell narrows_takeTag ..
  case headerCellReceived cell => exact narrows_receiveCell narrows_takeHeader ..
  case dataCellReceived cell => exact narrows_receiveCell narrows_takeData ..
  case checkCellReceived cell => exact narrows_receiveCell narrows_takeCheck ..
  case gapTimeout =>
    exact nextIs_inPhase fun _ _ _ => nextIs_ite (fun _ => .refused _) fun _ =>
      .next ((same rfl rfl rfl).trans (.endTransaction ..))
  case pendingWindowEnd window => exact nextIs_inPhase fun t ht _ => .next (.endWindow ht _)
  case publishComplete => exact nextIs_inPhase fun _ _ _ => .next (.endTransaction_onLine ..)
  case readbackError ahead read =>
    show NextIs _ (execReadbackError l ahead read s)
    unfold execReadbackError
    split
    · exact .refused _
    · simp only
      split
      · exact .refused _
      · exact nextIs_ite (fun _ => .next (.endTransaction_onLine ..)) fun _ => .refused _
  case stuckFault => exact narrows_raiseStuck l s
  case pauseComplete =>
    refine nextIs_inCondition fun _ => ?_
    split
    · exact .refused _
    · exact .next ((same rfl rfl rfl).trans (.choose ..))
  case sleepReleaseComplete =>
    exact nextIs_inReleaseWait fun _ _ => .next (((same rfl rfl rfl).trans (.changeCondition ..)).trans (.completeQueued ..))
  case sleepReleaseWake => exact nextIs_inReleaseWait fun _ _ => .next (.objectToSleep ..)
  case responderWake run =>
    exact nextIs_inCondition fun _ => nextIs_ite (fun _ => .refused _) fun _ => .next (.endResponderRun ..)
  case wakePulseEnd => exact nextIs_inCondition fun _ => nextIs_ite (fun _ => .next (.onLine ..)) fun _ => .refused _
  case wakeSettleComplete =>
    exact nextIs_inCondition fun _ => nextIs_ite (fun _ => .refused _) fun _ => .next ((same rfl rfl rfl).trans (.enterResume ..))
  case recoveryQuietComplete =>
    exact nextIs_inCondition fun _ => nextIs_ite (fun _ => .next ((Narrows.onLine ..).trans (.leaveFaulted ..))) fun _ =>
      .next (.onLine ..)
  case responseStartBit start =>
    show NextIs _ (execResponseStartBit l start s)
    unfold execResponseStartBit
    split
    · exact .refused _
    · exact nextIs_ite (fun _ => nextIs_ite (fun _ => .next (.startCell ‹_›)) fun _ => .next (.refl s)) fun _ => .refused _
  case dominantBitTime bit =>
    show NextIs _ (execDominantBitTime l bit s)
    unfold execDominantBitTime
    simp only
    split
    · exact narrows_inTransaction ‹_› _
    · exact narrows_betweenTransactions ..

end Sys2Proof.Machine
end

section
/-!
The requests, by what they do to the places and the handles held: SCHED_ADD and SEND_ONCE apart, a request leaves lane engines that hold no
more than before (R70, R93).
-/

namespace Sys2Proof.Machine

open Sys2Proof

variable {l : LaneId} {s t u : State} {P : State → Prop}

/-! ## The shapes that requests share -/

/-- The state that a request leaves satisfies `P`. -/
def Leaves (P : State → Prop) (a : State × Answer) : Prop := P a.1

theorem leaves_accept {fields : List Byte} (h : P t) : Leaves P (accept fields t) := h
theorem leaves_refuse (status : Status) (h : P s) : Leaves P (refuse status s) := h

theorem leaves_ite {p : Prop} [Decidable p] {a b : State × Answer} (ha : p → Leaves P a) (hb : ¬ p → Leaves P b) :
    Leaves P (if p then a else b) := by
  split
  · exact ha ‹_›
  · exact hb ‹_›

theorem leaves_withLane {b : Byte} {k : LaneId → State × Answer} (h0 : P s) (h : ∀ l, Leaves P (k l)) : Leaves P (withLane b s k) := by
  unfold withLane
  split
  · exact leaves_refuse _ h0
  · exact h _

theorem leaves_withUserSlot {b : Byte} {k : SlotId → State × Answer} (h0 : P s) (h : ∀ slot, Leaves P (k slot)) :
    Leaves P (withUserSlot b s k) := by
  unfold withUserSlot
  split
  · exact leaves_refuse _ h0
  · exact h _

theorem leaves_withHostPublished {r : SlotRef} {k : PublishedRec → State × Answer} (h0 : P s) (h : ∀ p, Leaves P (k p)) :
    Leaves P (withHostPublished r s k) := by
  unfold withHostPublished
  split
  case h_4 => exact leaves_ite (fun _ => leaves_refuse _ h0) fun _ => h _
  all_goals exact leaves_refuse _ h0

theorem leaves_laneAlone {k : LaneId → State → State × Answer} (h0 : P s) (h : ∀ l, Leaves P (k l s)) (body : List Byte) :
    Leaves P (laneAlone k body s) := by
  unfold laneAlone
  split
  · exact leaves_withLane h0 h
  · exact leaves_refuse _ h0

theorem leaves_checkLength {code : Byte} {act : List Byte → State → State × Answer} {body : List Byte} (h0 : P s)
    (h : Leaves P (act body s)) : Leaves P (checkLength code act body s) := leaves_ite (fun _ => h) fun _ => leaves_refuse _ h0

/-! ## Lane requests -/

theorem Narrows.setResume (l : LaneId) (r : Resume) (s : State) : Narrows s (setResume l r s) := .onLane s (.of_same rfl rfl rfl)

theorem Narrows.forbidFollowUps (l : LaneId) (s : State) : Narrows s (forbidFollowUps l s) := by
  refine .onLane s (.of_sublist rfl (.refl _) (.inr ?_))
  cases (s.lane l).transaction <;> rfl

theorem Narrows.requestRecovery (l : LaneId) (r : Resume) (s : State) : Narrows s (requestRecovery l r s) := by
  have armed (u : State) : Narrows u (u.onLane l fun L => { L with recoveryArmed := true }) := .onLane u (.of_same rfl rfl rfl)
  exact (Narrows.setResume ..).trans (.ite (.refl _) (.ite ((armed _).trans (.leaveFaulted ..)) (armed _)))

theorem Narrows.enterSleepPending (l : LaneId) (r : Resume) (s : State) : Narrows s (enterSleepPending l r s) :=
  ((Narrows.setResume ..).trans (.changeCondition ..)).trans (.ite (.refl _) (.begin l _ rfl))

theorem narrows_configLane (body : List Byte) (s : State) : Leaves (Narrows s) (configLane body s) := by
  unfold configLane
  split
  · refine leaves_withLane (.refl s) fun l => ?_
    split
    · exact leaves_refuse _ (.refl s)
    · exact leaves_ite (fun _ => leaves_accept (.onLane s (.of_same rfl rfl rfl))) fun _ => leaves_refuse _ (.refl s)
  · exact leaves_refuse _ (.refl s)

theorem narrows_startLane (l : LaneId) (s : State) : Leaves (Narrows s) (startLane l s) := by
  unfold startLane
  split
  case h_1 => exact leaves_accept (.enterRunning ..)
  case h_5 | h_6 => exact leaves_accept (.setResume ..)
  case h_7 => exact leaves_accept (.requestRecovery ..)
  all_goals exact leaves_refuse _ (.refl s)

theorem narrows_haltLane (l : LaneId) (s : State) : Leaves (Narrows s) (haltLane l s) := by
  unfold haltLane
  split
  case h_1 =>
    have halting : Narrows (forbidFollowUps l s) ((forbidFollowUps l s).onLane l fun L => { L with condition := .halting }) :=
      .onLane _ (.of_same rfl rfl rfl)
    exact leaves_ite (fun _ => leaves_accept ((Narrows.forbidFollowUps l s).trans halting)) fun _ =>
      leaves_accept ((Narrows.resetRound ..).trans (.enterHalted ..))
  case h_5 | h_6 => exact leaves_accept (.setResume ..)
  case h_7 => exact leaves_accept (.requestRecovery ..)
  all_goals exact leaves_refuse _ (.refl s)

theorem narrows_sleepLane (l : LaneId) (s : State) : Leaves (Narrows s) (sleepLane l s) := by
  unfold sleepLane
  split
  · exact leaves_accept (.enterSleepPending ..)
  · exact leaves_accept (((Narrows.forbidFollowUps l s).trans (.resetRound ..)).trans (.enterSleepPending ..))
  all_goals exact leaves_refuse _ (.refl s)

theorem narrows_wakeLane (l : LaneId) (s : State) : Leaves (Narrows s) (wakeLane l s) := by
  unfold wakeLane
  split
  · exact leaves_accept ((Narrows.onLane s (.of_same rfl rfl rfl)).trans (.changeCondition ..))
  all_goals exact leaves_refuse _ (.refl s)

theorem narrows_readLaneStatus (body : List Byte) (s : State) : Leaves (Narrows s) (readLaneStatus body s) := by
  unfold readLaneStatus
  split
  · refine leaves_withLane (.refl s) fun l => ?_
    split
    · exact leaves_refuse _ (.refl s)
    · exact leaves_accept (.ite (.onLane s (.of_same rfl rfl rfl)) (.refl s))
  · exact leaves_refuse _ (.refl s)

theorem narrows_clearCapture (l : LaneId) (s : State) : Leaves (Narrows s) (clearCapture l s) :=
  leaves_accept (.onLane s (.of_same rfl rfl rfl))

/-! ## Schedule requests and WITHDRAW -/

theorem narrows_schedOpen (body : List Byte) (s : State) : Leaves (Narrows s) (schedOpen body s) := by
  unfold schedOpen
  split
  · exact leaves_withLane (.refl s) fun l => leaves_accept (Narrows.onLane (l := l) s .builderOpened)
  · exact leaves_refuse _ (.refl s)

theorem narrows_schedDiscard (body : List Byte) (s : State) : Leaves (Narrows s) (schedDiscard body s) := by
  unfold schedDiscard
  split
  · refine leaves_withLane (.refl s) fun l => ?_
    split
    · exact leaves_refuse _ (.refl s)
    · exact leaves_accept (Narrows.onLane (l := l) s .builderClosed)
  · exact leaves_refuse _ (.refl s)

theorem narrows_schedCommit (body : List Byte) (s : State) : Leaves (Narrows s) (schedCommit body s) := by
  unfold schedCommit
  split
  · refine leaves_withLane (.refl s) fun l => ?_
    split
    · exact leaves_refuse _ (.refl s)
    · rename_i entries hb
      have staged : Narrows s (s.onSchedules l fun x => { x with builder := none, staged := some entries }) := .onLane s (.staged hb)
      exact leaves_ite (fun _ => leaves_accept ((staged.trans (.swapStaged ..)).trans (.ite (.choose ..) (.refl _)))) fun _ =>
        leaves_accept staged
  · exact leaves_refuse _ (.refl s)

theorem narrows_readSchedule (body : List Byte) (s : State) : Leaves (Narrows s) (readSchedule body s) := by
  unfold readSchedule
  split
  · refine leaves_withLane (.refl s) fun l => ?_
    split
    · exact leaves_accept (.refl s)
    · exact leaves_refuse _ (.refl s)
  · exact leaves_refuse _ (.refl s)

theorem narrows_withdraw (body : List Byte) (s : State) : Leaves (Narrows s) (withdraw body s) := by
  unfold withdraw
  split
  · simp only
    split
    · rename_i l _
      have removed (handle : Nat) : Narrows s (s.onLane l fun L => { L with oneShots := L.oneShots.eraseP fun o => o.handle == handle }) :=
        .onLane s (.of_sublist rfl List.eraseP_sublist (.inr rfl))
      exact leaves_accept ((removed _).trans (.report ..))
    · exact leaves_ite (fun _ => leaves_refuse _ (.refl s)) fun _ => leaves_refuse _ (.refl s)
  · exact leaves_refuse _ (.refl s)

/-! ## Slot and route requests -/

theorem Narrows.setSlot (s : State) (r : SlotRef) (x : SlotRecord) : Narrows s (s.setSlot r x) := .of_lanes rfl rfl

theorem narrows_defineSlot (body : List Byte) (s : State) : Leaves (Narrows s) (defineSlot body s) := by
  unfold defineSlot
  split
  · refine leaves_withLane (.refl s) fun l => leaves_withUserSlot (.refl s) fun k => ?_
    split
    · exact leaves_refuse _ (.refl s)
    · exact leaves_ite (fun _ => leaves_refuse _ (.refl s)) fun _ => leaves_accept (.setSlot ..)
  · exact leaves_refuse _ (.refl s)

theorem narrows_clearSlot (body : List Byte) (s : State) : Leaves (Narrows s) (clearSlot body s) := by
  unfold clearSlot
  split
  · exact leaves_withLane (.refl s) fun l => leaves_withUserSlot (.refl s) fun k =>
      leaves_ite (fun _ => leaves_refuse _ (.refl s)) fun _ => leaves_accept (.setSlot ..)
  · exact leaves_refuse _ (.refl s)

theorem narrows_writeSlot (body : List Byte) (s : State) : Leaves (Narrows s) (writeSlot body s) := by
  unfold writeSlot
  split
  · exact leaves_withLane (.refl s) fun l => leaves_withUserSlot (.refl s) fun k => leaves_withHostPublished (.refl s) fun p =>
      leaves_ite (fun _ => leaves_accept (.setSlot ..)) fun _ => leaves_refuse _ (.refl s)
  · exact leaves_refuse _ (.refl s)

theorem narrows_readSlot (body : List Byte) (s : State) : Leaves (Narrows s) (readSlot body s) := by
  unfold readSlot
  split
  · refine leaves_withLane (.refl s) fun l => ?_
    split
    · exact leaves_refuse _ (.refl s)
    · exact leaves_accept (.refl s)
  · exact leaves_refuse _ (.refl s)

theorem narrows_setFailsafe (body : List Byte) (s : State) : Leaves (Narrows s) (setFailsafe body s) := by
  unfold setFailsafe
  split
  · refine leaves_withLane (.refl s) fun l => leaves_withUserSlot (.refl s) fun k => ?_
    split
    · exact leaves_refuse _ (.refl s)
    · exact leaves_withHostPublished (.refl s) fun p =>
        leaves_ite (fun _ => leaves_accept (.setSlot ..)) fun _ => leaves_refuse _ (.refl s)
  · exact leaves_refuse _ (.refl s)

theorem Narrows.clearFailsafeActive (s : State) (r : SlotRef) : Narrows s (s.clearFailsafeActive r) := by
  unfold State.clearFailsafeActive
  split
  · exact .setSlot ..
  · exact .refl s

theorem Narrows.setRoute (s : State) (i : Fin 16) (r : Option Route) : Narrows s (s.setRoute i r) := .of_lanes rfl rfl

theorem narrows_routeSet (body : List Byte) (s : State) : Leaves (Narrows s) (routeSet body s) := by
  unfold routeSet
  split
  · split
    · exact leaves_refuse _ (.refl s)
    · refine leaves_withLane (.refl s) fun sl => leaves_withLane (.refl s) fun dl => leaves_withUserSlot (.refl s) fun sk =>
        leaves_withUserSlot (.refl s) fun dk => ?_
      split
      · exact leaves_refuse _ (.refl s)
      · simp only
        split
        · exact leaves_refuse _ (.refl s)
        · exact leaves_accept ((Narrows.setRoute ..).trans (.clearFailsafeActive ..))
  · exact leaves_refuse _ (.refl s)

theorem narrows_routeClear (body : List Byte) (s : State) : Leaves (Narrows s) (routeClear body s) := by
  unfold routeClear
  split
  · split
    · exact leaves_refuse _ (.refl s)
    · exact leaves_accept (.setRoute ..)
  · exact leaves_refuse _ (.refl s)

/-! ## Link and report requests -/

theorem Narrows.onHli (s : State) (f : Hli → Hli) : Narrows s (s.onHli f) := .of_lanes rfl rfl

theorem narrows_linkReset (body : List Byte) (s : State) : Leaves (Narrows s) (linkReset body s) := leaves_accept (.of_lanes rfl rfl)

theorem narrows_readLinkStatus (body : List Byte) (s : State) : Leaves (Narrows s) (readLinkStatus body s) := by
  unfold readLinkStatus
  split
  · split
    · exact leaves_refuse _ (.refl s)
    · exact leaves_accept (.ite (.onHli ..) (.refl s))
  · exact leaves_refuse _ (.refl s)

theorem narrows_setSilenceLimit (body : List Byte) (s : State) : Leaves (Narrows s) (setSilenceLimit body s) := by
  unfold setSilenceLimit
  split
  · exact leaves_accept (.onHli ..)
  · exact leaves_refuse _ (.refl s)

theorem narrows_reportCredit (body : List Byte) (s : State) : Leaves (Narrows s) (reportCredit body s) := by
  unfold reportCredit
  split
  · split
    · exact leaves_refuse _ (.refl s)
    · exact leaves_accept (.onHli ..)
  · exact leaves_refuse _ (.refl s)

theorem narrows_reportAck (body : List Byte) (s : State) : Leaves (Narrows s) (reportAck body s) := by
  unfold reportAck
  split
  · split
    · exact leaves_refuse _ (.refl s)
    · exact leaves_accept (.of_lanes rfl rfl)
  · exact leaves_refuse _ (.refl s)

end Sys2Proof.Machine
end

section
/-!
Every step keeps the entry pool in bounds and the handles distinct: SCHED_ADD and SEND_ONCE alone take places and handles, and they take
what is free (R70, R74, R93).
-/

namespace Sys2Proof.Machine

open Sys2Proof

variable {l : LaneId} {s t u : State}

/-- A change of state keeps the bounds of the pool, and the handles distinct and in range. -/
structure KeepsBounds (s t : State) : Prop where
  pool : PoolWf s → PoolWf t
  handles : LanesWf s → HandlesWf s → HandlesWf t

theorem Narrows.keepsBounds (h : Narrows s t) : KeepsBounds s t := ⟨h.poolWf, fun _ => h.handlesWf⟩

theorem KeepsBounds.refl (s : State) : KeepsBounds s s := (Narrows.refl s).keepsBounds

theorem KeepsBounds.narrows (h : KeepsBounds s t) (k : Narrows t u) : KeepsBounds s u :=
  ⟨fun w => k.poolWf (h.pool w), fun hl w => k.handlesWf (h.handles hl w)⟩

/-- A change of the host link or of the waiting commands comes first. -/
theorem KeepsBounds.after (hl : t.lanes = s.lanes) (hn : t.nextHandle = s.nextHandle) (h : KeepsBounds t u) : KeepsBounds s u :=
  ⟨fun w => h.pool ((Narrows.of_lanes hl hn).poolWf w),
    fun wl w => h.handles (wl.of_lanes hl) ((Narrows.of_lanes hl hn).handlesWf w)⟩

/-! ## SCHED_ADD -/

theorem Schedules.held_append {x : Schedules} {held entries : List Entry} (hb : x.builder = some held) :
    Schedules.held { x with builder := some (held ++ entries) } = x.held + entries.length := by
  simp only [Schedules.held, hb, Option.getD_some, List.length_append]
  omega

/-- The builder grows by entries, and the pool by as many places (R74). -/
theorem State.places_append {held entries : List Entry} (hb : (s.lane l).schedules.builder = some held) :
    (s.onSchedules l fun x => { x with builder := some (held ++ entries) }).places = s.places + entries.length := by
  refine State.places_of_held (l := l) (fun m hm => s.lane_onLane_of_ne _ hm) ?_
  rw [State.onSchedules, State.lane_onLane_self]
  exact Schedules.held_append hb

/-- Entries for which the builder and the pool have room (R74). -/
theorem KeepsBounds.append {held entries : List Entry} (hb : (s.lane l).schedules.builder = some held)
    (hroom : held.length + entries.length ≤ 48) (hfree : entries.length ≤ s.poolFree) :
    KeepsBounds s (s.onSchedules l fun x => { x with builder := some (held ++ entries) }) where
  pool w := by
    rw [s.poolFree_eq] at hfree
    rw [poolWf_iff] at w ⊢
    refine ⟨by rw [State.places_append hb]; omega, fun m => ?_⟩
    rw [State.onSchedules, State.lane_onLane]
    split
    · refine ⟨?_, (w.2 l).staged, (w.2 l).active⟩
      rintro _ ⟨⟩
      rwa [List.length_append]
    · exact w.2 m
  handles _ w := by
    have same : (s.onSchedules l fun x => { x with builder := some (held ++ entries) }).handles = s.handles := by
      rw [State.handles_eq, State.handles_eq]
      refine List.flatMap_congr fun m _ => ?_
      rw [State.onSchedules, State.lane_onLane]
      split
      · subst m; rfl
      · rfl
    exact ⟨w.next, same ▸ w.range, same ▸ w.distinct⟩

theorem keepsBounds_schedAdd (body : List Byte) (s : State) : Leaves (KeepsBounds s) (schedAdd body s) := by
  unfold schedAdd
  split
  · refine leaves_withLane (.refl s) fun l => ?_
    split
    · exact leaves_refuse _ (.refl s)
    · rename_i held hb
      split
      · exact leaves_refuse _ (.refl s)
      · exact leaves_ite (fun hroom => leaves_accept (.append hb hroom.1 hroom.2)) fun _ => leaves_refuse _ (.refl s)
  · exact leaves_refuse _ (.refl s)

/-! ## SEND_ONCE -/

theorem PoolWf.congr (h : ∀ m, (t.lane m).schedules = (s.lane m).schedules) (w : PoolWf s) : PoolWf t := by
  rw [poolWf_iff] at w ⊢
  simpa only [State.places, h] using w

/-- The state with a one-shot queued under a handle (R95). -/
def State.queued (s : State) (l : LaneId) (o : OneShot) : State :=
  State.onLane { s with nextHandle := nextNumber o.handle } l fun L => { L with oneShots := L.oneShots ++ [o] }

/-- The handle of the one-shot queued joins those held. -/
theorem State.handles_queued (s : State) (l : LaneId) (o : OneShot) : (s.queued l o).handles.Perm (o.handle :: s.handles) := by
  have lane : ((s.queued l o).lane l).handles.Perm (o.handle :: (s.lane l).handles) := by
    rw [State.queued, State.lane_onLane_self]
    simp only [Lane.handles, List.map_append, List.map_cons, List.map_nil, List.append_assoc]
    exact List.perm_middle
  have others : (s.queued l o).otherHandles l = s.otherHandles l :=
    State.otherHandles_congr fun m hm => State.lane_onLane_of_ne { s with nextHandle := nextNumber o.handle } _ hm
  have whole := (s.queued l o).handles_perm l
  rw [others] at whole
  exact whole.trans ((lane.append_right _).trans ((s.handles_perm l).symm.cons _))

/-- A one-shot queued under a free handle (R93). -/
theorem KeepsBounds.queued (s : State) (l : LaneId) {o : OneShot} (ho : o.handle = freeHandle s.handles s.nextHandle) :
    KeepsBounds s (s.queued l o) where
  pool := PoolWf.congr fun m => by
    rw [State.queued, State.lane_onLane]
    split
    · subst m; rfl
    · rfl
  handles wl w := by
    have range : 1 ≤ o.handle ∧ o.handle ≤ 65535 := ho ▸ passOver_range w.next
    have free : o.handle ∉ s.handles := ho ▸ freeHandle_not_mem w.next (wl.length_handles_le.trans_lt (by decide))
    have same := s.handles_queued l o
    refine ⟨nextNumber_range range, fun handle hh => ?_, same.nodup_iff.mpr (List.nodup_cons.mpr ⟨free, w.distinct⟩)⟩
    rcases List.mem_cons.mp (same.mem_iff.mp hh) with rfl | hh
    · exact range
    · exact w.range handle hh

theorem keepsBounds_queueOneShot (l : LaneId) (k : SlotId) (kind : OneShotKind) (data : Option (List Byte)) (s : State) :
    Leaves (KeepsBounds s) (queueOneShot l k kind data s) := by
  have queued : KeepsBounds s (s.queued l ⟨freeHandle s.handles s.nextHandle, k, kind, data⟩) := .queued s l rfl
  exact leaves_accept (queued.narrows (.ite (.choose ..) (.refl _)))

theorem keepsBounds_sendOnce (body : List Byte) (s : State) : Leaves (KeepsBounds s) (sendOnce body s) := by
  unfold sendOnce
  split
  · refine leaves_withLane (.refl s) fun l => leaves_withUserSlot (.refl s) fun k => leaves_ite (fun _ => leaves_refuse _ (.refl s))
      fun _ => leaves_ite (fun _ => leaves_refuse _ (.refl s)) fun _ => ?_
    split
    · exact leaves_refuse _ (.refl s)
    · exact leaves_ite (fun _ => keepsBounds_queueOneShot ..) fun _ => leaves_refuse _ (.refl s)
  · exact leaves_refuse _ (.refl s)

/-! ## The request handler -/

/-- Taking a frame and answering it is of the host link alone (R157). -/
theorem keepsBounds_handle {f : Frame} {act : List Byte → State → State × Answer} (h : ∀ s, Leaves (KeepsBounds s) (act f.body s))
    (s : State) : NextIs (KeepsBounds s) (handle f act s) := by
  refine nextIs_ite (fun _ => .refused _) fun _ => nextIs_ite (fun _ => .refused _) fun _ => nextIs_ite (fun _ => ?_) fun _ => .refused _
  simp only
  split
  · exact .next (Narrows.keepsBounds (.of_lanes rfl rfl))
  · have acted : KeepsBounds s (act f.body (s.onHli Hli.popBuffer)).1 := .after (t := s.onHli Hli.popBuffer) rfl rfl (h _)
    exact .next (acted.narrows (.of_lanes rfl rfl))

theorem keepsBounds_request {act : List Byte → State → State × Answer} (h : ∀ body s, Leaves (KeepsBounds s) (act body s))
    (code tag : Byte) (body : List Byte) (s : State) : NextIs (KeepsBounds s) (handleRequest code tag body act s) :=
  keepsBounds_handle (fun s => leaves_checkLength (.refl s) (h body s)) s

theorem keepsBounds_narrowing {act : List Byte → State → State × Answer} (h : ∀ body s, Leaves (Narrows s) (act body s))
    (code tag : Byte) (body : List Byte) (s : State) : NextIs (KeepsBounds s) (handleRequest code tag body act s) :=
  keepsBounds_request (fun body s => (h body s).keepsBounds) code tag body s

theorem keepsBounds_laneAlone {k : LaneId → State → State × Answer} (h : ∀ l s, Leaves (Narrows s) (k l s))
    (code tag : Byte) (body : List Byte) (s : State) : NextIs (KeepsBounds s) (handleRequest code tag body (laneAlone k) s) :=
  keepsBounds_narrowing (fun body s => leaves_laneAlone (.refl s) (fun l => h l s) body) code tag body s

/-! ## The events of the part -/

/-- After a reset nothing is held, and the next handle is 1 (R71, R93). -/
theorem narrows_afterReset (s : State) (rate : HostRate) (cause : ResetCause) (pending : List Instr) :
    Narrows s (State.afterReset rate cause pending) where
  lane l := by
    rw [State.lane_afterReset]
    exact ⟨Nat.zero_le _, fun _ => ⟨nofun, nofun, Nat.zero_le _⟩, List.nil_subperm⟩
  next _ := ⟨Nat.le_refl 1, (by decide : 1 ≤ 65535)⟩

theorem narrows_insideFrame {k : State → Host.Outcome State Fault Refusal} (h : ∀ s, NextIs (Narrows s) (k s)) (s : State) :
    NextIs (Narrows s) (insideFrame s k) := by
  unfold insideFrame
  split
  · exact .refused _
  · exact (h _).mono fun _ => (Narrows.onHli s fun h => { h with receiver := .hunting }).trans

theorem narrows_goodFrame (bytes : List LinkLevels) (s : State) : NextIs (Narrows s) (execGoodFrame bytes s) := by
  refine narrows_insideFrame (fun s => ?_) s
  have guarded : Narrows s (guardTakesFrame s) := by
    unfold guardTakesFrame
    simp only
    split <;> exact .of_lanes rfl rfl
  split
  · exact .refused _
  · exact .next (guarded.trans (.onHli ..))

theorem narrows_frameDiscard (found : DiscardedByte) (s : State) : NextIs (Narrows s) (execFrameDiscard found s) := by
  refine narrows_insideFrame (fun s => ?_) s
  split
  · exact .next (.onHli ..)
  · exact nextIs_ite (fun _ => .refused _) fun _ => nextIs_ite (fun _ => .next (.onHli ..)) fun _ => .next (.onHli ..)

theorem narrows_crcMismatch (bytes : List LinkLevels) (s : State) : NextIs (Narrows s) (execCrcMismatch bytes s) :=
  narrows_insideFrame (fun _ => nextIs_ite (fun _ => .next (.onHli ..)) fun _ => .refused _) s

theorem narrows_frameStartByte (levels : LinkLevels) (s : State) : NextIs (Narrows s) (execFrameStartByte s levels) := by
  unfold execFrameStartByte
  split
  · exact nextIs_ite (fun _ => .next (.onHli ..)) fun _ => .next (.refl s)
  · exact .refused _

theorem narrows_hostSilenceBegin (s : State) : NextIs (Narrows s) (execHostSilenceBegin s) := by
  unfold execHostSilenceBegin
  split
  · exact .refused _
  · exact .next (.of_lanes rfl rfl)

theorem narrows_whenIdle {k : Host.Outcome State Fault Refusal} (h : NextIs (Narrows s) k) : NextIs (Narrows s) (whenIdle s k) := by
  unfold whenIdle
  split
  · exact .refused _
  · exact h

theorem narrows_sendReady (s : State) : NextIs (Narrows s) (execSendReady s) := by
  refine narrows_whenIdle ?_
  split
  · exact .refused _
  · exact .next (.onHli ..)

theorem narrows_sendReply (s : State) : NextIs (Narrows s) (execSendReply s) := by
  refine narrows_whenIdle ?_
  split
  · exact .next (.onHli ..)
  · exact .refused _

theorem narrows_sendReport (s : State) : NextIs (Narrows s) (execSendReport s) := by
  refine narrows_whenIdle ?_
  split
  · exact nextIs_ite (fun _ => .refused _) fun _ => .next (.of_lanes rfl rfl)
  · exact .refused _

theorem narrows_frameEnd (s : State) : NextIs (Narrows s) (execFrameEnd s) := by
  unfold execFrameEnd
  split
  · exact .refused _
  · refine nextIs_ite (fun _ => .next (narrows_afterReset ..)) fun _ => ?_
    split <;> exact .next (.onHli ..)

/-! ## Every step -/

/-- Every command keeps the bounds. -/
theorem keepsBounds_exec (c : Instr) (s : State) : NextIs (KeepsBounds s) (exec c s) := by
  have narrows {r : Host.Outcome State Fault Refusal} (h : NextIs (Narrows s) r) : NextIs (KeepsBounds s) r :=
    h.mono fun _ => Narrows.keepsBounds
  cases hl : c.lane with
  | some l => exact narrows (narrows_of_laneEvent hl)
  | none =>
    cases c with
    | powerOnReset hrate => exact narrows (.next (narrows_afterReset ..))
    | pinReset hrate => exact narrows (.next (narrows_afterReset ..))
    | goodFrame bytes => exact narrows (narrows_goodFrame ..)
    | frameDiscard found => exact narrows (narrows_frameDiscard ..)
    | crcMismatch bytes => exact narrows (narrows_crcMismatch ..)
    | frameGapTimeout => exact narrows (narrows_insideFrame (fun s => .next (.onHli ..)) s)
    | hostSilenceBegin => exact narrows (narrows_hostSilenceBegin s)
    | sendReady => exact narrows (narrows_sendReady s)
    | sendReply => exact narrows (narrows_sendReply s)
    | sendReport => exact narrows (narrows_sendReport s)
    | frameEnd => exact narrows (narrows_frameEnd s)
    | frameStartByte levels => exact narrows (narrows_frameStartByte ..)
    | unknownRequest kind tag body =>
      exact nextIs_ite (fun _ => .refused _) fun _ => keepsBounds_handle (fun s => leaves_refuse .unknownRequest (.refl s)) s
    | hello => exact keepsBounds_narrowing (fun _ s => leaves_accept (.refl s)) ..
    | softReset => exact keepsBounds_narrowing (fun _ s => leaves_accept (.onHli ..)) ..
    | linkReset => exact keepsBounds_narrowing narrows_linkReset ..
    | readLinkStatus => exact keepsBounds_narrowing narrows_readLinkStatus ..
    | setSilenceLimit => exact keepsBounds_narrowing narrows_setSilenceLimit ..
    | configLane => exact keepsBounds_narrowing narrows_configLane ..
    | laneStart => exact keepsBounds_laneAlone narrows_startLane ..
    | laneHalt => exact keepsBounds_laneAlone narrows_haltLane ..
    | laneSleep => exact keepsBounds_laneAlone narrows_sleepLane ..
    | laneWake => exact keepsBounds_laneAlone narrows_wakeLane ..
    | readLaneStatus => exact keepsBounds_narrowing narrows_readLaneStatus ..
    | clearCapture => exact keepsBounds_laneAlone narrows_clearCapture ..
    | defineSlot => exact keepsBounds_narrowing narrows_defineSlot ..
    | clearSlot => exact keepsBounds_narrowing narrows_clearSlot ..
    | writeSlot => exact keepsBounds_narrowing narrows_writeSlot ..
    | readSlot => exact keepsBounds_narrowing narrows_readSlot ..
    | setFailsafe => exact keepsBounds_narrowing narrows_setFailsafe ..
    | schedOpen => exact keepsBounds_narrowing narrows_schedOpen ..
    | schedAdd => exact keepsBounds_request keepsBounds_schedAdd ..
    | schedCommit => exact keepsBounds_narrowing narrows_schedCommit ..
    | schedDiscard => exact keepsBounds_narrowing narrows_schedDiscard ..
    | readSchedule => exact keepsBounds_narrowing narrows_readSchedule ..
    | sendOnce => exact keepsBounds_request keepsBounds_sendOnce ..
    | withdraw => exact keepsBounds_narrowing narrows_withdraw ..
    | routeSet => exact keepsBounds_narrowing narrows_routeSet ..
    | routeClear => exact keepsBounds_narrowing narrows_routeClear ..
    | readRoutes => exact keepsBounds_narrowing (fun _ s => leaves_accept (.refl s)) ..
    | reportCredit => exact keepsBounds_narrowing narrows_reportCredit ..
    | reportAck => exact keepsBounds_narrowing narrows_reportAck ..
    | _ => cases hl

/-- Every step keeps the bounds, whatever commands wait (log entry 7). -/
theorem keepsBounds_of_step (h : step s = .next t) : KeepsBounds s t := by
  unfold step at h
  split at h
  · cases h
    exact .refl s
  · rename_i c rest _
    exact .after (t := { s with pending := rest }) rfl rfl ((keepsBounds_exec c _).of_eq_next h)

/-- Settles O59: every step keeps the bounds, and the places and handles counted are those of the schedules and of the one-shots. -/
theorem poolAndHandlesStayInBounds : Obligations.PoolAndHandlesStayInBounds := by
  refine ⟨fun s t h => ⟨(keepsBounds_of_step h).pool, (keepsBounds_of_step h).handles⟩, fun x => ?_, fun s handle => ?_⟩
  · simp only [Schedules.held, List.length_append]
  · simp only [s.mem_handles, Lane.mem_handles]

end Sys2Proof.Machine
end

section
/-!
The lane changes that lead into RUNNING or HALTED: LANE_START, the wake settle and the recovery quiet (R83, R84, R116, R124, R127 to R130).
-/

namespace Sys2Proof.Machine

open Sys2Proof

variable {l : LaneId} {s : State}

/-! ## LANE_START -/

/-- LANE_START on a HALTED lane (R83, R84, R116). -/
theorem startLane_halted (hc : (s.lane l).condition = .halted) : startLane l s = accept []
    (choose l { s.setLane l { s.lane l with
        condition := .running, schedules := (s.lane l).swapped, round := (s.lane l).round.abandoned } with
      reports := (.laneChange l .halted .running .request :: (s.lane l).swapReports l).foldl ReportQueue.handOver s.reports }) := by
  simp only [startLane, hc, enterRunning_eq rfl]
  rfl

/-- LANE_START asleep or waking (R130). -/
theorem startLane_asleep (hc : (s.lane l).condition = .sleeping ∨ (s.lane l).condition = .waking) :
    startLane l s = accept [] (setResume l .running s) := by
  rcases hc with hc | hc <;> simp only [startLane, hc]

theorem startLane_refuses
    (hc : (s.lane l).condition = .running ∨ (s.lane l).condition = .halting ∨ (s.lane l).condition = .sleepPending) :
    startLane l s = refuse .badState s := by
  rcases hc with hc | hc | hc <;> simp only [startLane, hc]

/-- Settles O17: the entry of the request, by the condition of the lane; the choice leaves the host link to the handler. -/
theorem laneStartByCondition : Obligations.LaneStartByCondition := by
  intro s tag l h L c f
  have entry {status fields u} (hk : startLane l (s.onHli Hli.popBuffer) = (u.onHli Hli.popBuffer, ⟨status, fields⟩)) :
      Answers c f s status fields u := answers_of_laneAlone h rfl rfl (by decide) hk
  refine ⟨fun hc => entry ?_, fun hc => entry (startLane_asleep (s := s.onHli Hli.popBuffer) hc),
    fun hc => entry (startLane_refuses (s := s.onHli Hli.popBuffer) hc)⟩
  rw [← choose_onHli]
  exact startLane_halted (s := s.onHli Hli.popBuffer) hc

/-! ## The resume condition -/

/-- A lane that waited, with its line as it has come to be, resumes RUNNING: the round begins again and the lane chooses (R83, R84, R124,
R129). -/
theorem enterResume_running (hr : (s.lane l).resume = .running) (x : LineState) (armed : Bool) (cause : Cause) :
    enterResume l cause (s.setLane l { s.lane l with line := x, recoveryArmed := armed }) =
      choose l { s.setLane l { s.lane l with
          line := x, recoveryArmed := armed, condition := .running, schedules := (s.lane l).swapped
          round := (s.lane l).round.abandoned } with
        reports := (.laneChange l (s.lane l).condition.reported .running cause :: (s.lane l).swapReports l).foldl
          ReportQueue.handOver s.reports } := by
  simp only [enterResume, State.lane_setLane_self, hr]
  rw [enterRunning_eq (State.lane_setLane_self ..), State.setLane_setLane]
  rfl

/-- A lane that waited, with its line as it has come to be, resumes HALTED: a staged schedule is swapped in (R83, R84, R124, R129). -/
theorem enterResume_halted (hr : (s.lane l).resume = .halted) (x : LineState) (armed : Bool) (cause : Cause) :
    enterResume l cause (s.setLane l { s.lane l with line := x, recoveryArmed := armed }) =
      { s.setLane l { s.lane l with
          line := x, recoveryArmed := armed, condition := .halted, schedules := (s.lane l).swapped
          round := { (s.lane l).round with
            position := if (s.lane l).schedules.staged.isSome then 0 else (s.lane l).round.position } } with
        reports := (.laneChange l (s.lane l).condition.reported .halted cause :: (s.lane l).swapReports l).foldl
          ReportQueue.handOver s.reports } := by
  simp only [enterResume, State.lane_setLane_self, hr]
  rw [enterHalted_eq (State.lane_setLane_self ..), State.setLane_setLane]
  rfl

/-- WAKE_SETTLE_COMPLETE once the wake pulse has ended (R124). -/
theorem execWakeSettleComplete_eq (hc : (s.lane l).condition = .waking) (hd : (s.lane l).line.driving = false) :
    exec (.wakeSettleComplete l) s = .next (enterResume l .settled (s.setLane l { s.lane l with
      line := (s.lane l).line.reach (s.lane l).config.wakeSettle, recoveryArmed := (s.lane l).recoveryArmed })) :=
  (inCondition_eq hc).trans (if_neg (by simp [hd]))

/-- RECOVERY_QUIET_COMPLETE where the lane may leave FAULTED: drain owed is discharged (R127 to R129). -/
theorem execRecoveryQuietComplete_leaves (hc : (s.lane l).condition = .faulted)
    (ha : (s.lane l).config.autoRecover = true ∨ (s.lane l).recoveryArmed = true) :
    exec (.recoveryQuietComplete l) s = .next (enterResume l .recovered (s.setLane l { s.lane l with
      line := { (s.lane l).line.reach recoveryQuiet with drainOwed := false }, recoveryArmed := false })) := by
  refine (inCondition_eq hc).trans ((if_pos (by simpa using ha)).trans ?_)
  simp only [leaveFaulted, State.onLine, State.onLane, State.lane_setLane_self, State.setLane_setLane]
  rfl

/-- RECOVERY_QUIET_COMPLETE where recovery has not been asked for: the quiet is counted (R128). -/
theorem execRecoveryQuietComplete_waits (hc : (s.lane l).condition = .faulted) (ha : (s.lane l).config.autoRecover = false)
    (hr : (s.lane l).recoveryArmed = false) :
    exec (.recoveryQuietComplete l) s = .next (s.setLane l { s.lane l with line := (s.lane l).line.reach recoveryQuiet }) :=
  (inCondition_eq hc).trans (if_neg (by simp [ha, hr]))

/-- Settles O51: both events lead to the resume condition, from the line that they leave. -/
theorem settledAndRecoveredLanesResume : Obligations.SettledAndRecoveredLanesResume := by
  intro s l L resumes
  have resumed {old : Condition} (hold : L.condition.reported = old) (x : LineState) (armed : Bool) (cause : Cause) :
      enterResume l cause (s.setLane l { L with line := x, recoveryArmed := armed })
        = resumes { L with line := x, recoveryArmed := armed } old cause := by
    subst hold
    simp only [resumes]
    split
    · exact enterResume_running ‹_› x armed cause
    · exact enterResume_halted ‹_› x armed cause
  refine ⟨fun hc hd => ?_, fun hc => ⟨fun ha => ?_, fun ha hr => ?_⟩⟩
  · rw [execWakeSettleComplete_eq hc hd]
    exact congrArg _ (resumed (by rw [hc]; rfl) _ _ _)
  · rw [execRecoveryQuietComplete_leaves hc ha]
    exact congrArg _ (resumed (by rw [hc]; rfl) _ _ _)
  · exact execRecoveryQuietComplete_waits hc ha hr

end Sys2Proof.Machine
end

section
/-!
The schedule requests: SCHED_OPEN, SCHED_ADD, SCHED_COMMIT, SCHED_DISCARD and READ_SCHEDULE (R70 to R77, R84, R85, R87, R186 to R189).
-/

namespace Sys2Proof.Machine

open Sys2Proof

variable {l : LaneId} {s : State}

/-- A request of the catalogue, LINK_RESET apart, whose body has the length that R171 gives answers what its entry answers. -/
theorem answers_of_entry {s u : State} {c : Instr} {code tag : Byte} {body : List Byte} {act : List Byte → State → State × Answer}
    {status : Status} {fields : List Byte} (h : Takes s ⟨code, tag, body⟩)
    (hexec : exec c s = handle ⟨code, tag, body⟩ (checkLength code act) s) (hlen : bodyLengthOk code body.length = true)
    (hcode : code ≠ 0x03) (hact : act body (s.onHli Hli.popBuffer) = (u.onHli Hli.popBuffer, ⟨status, fields⟩)) :
    Answers c ⟨code, tag, body⟩ s status fields u :=
  answers_of_act h hexec ((if_pos hlen).trans hact) (.inl hcode)

/-! ## SCHED_OPEN and SCHED_DISCARD -/

theorem schedOpen_eq : schedOpen [byte l.val] s =
    let opened := s.setLane l { s.lane l with schedules := { (s.lane l).schedules with builder := some [] } }
    accept [byte (96 - opened.places)] opened := by
  simp only [schedOpen, withLane, laneOf_byte, State.poolFree_eq]
  rfl

theorem schedDiscard_eq (hb : (s.lane l).schedules.builder.isSome) : schedDiscard [byte l.val] s =
    let discarded := s.setLane l { s.lane l with schedules := { (s.lane l).schedules with builder := none } }
    accept [byte (96 - discarded.places)] discarded := by
  obtain ⟨held, hb⟩ := Option.isSome_iff_exists.mp hb
  simp only [schedDiscard, withLane, laneOf_byte, hb, State.poolFree_eq]
  rfl

theorem schedDiscard_refuses (hb : (s.lane l).schedules.builder = none) : schedDiscard [byte l.val] s = refuse .notOpen s := by
  simp only [schedDiscard, withLane, laneOf_byte, hb]

/-- Settles O28: each request replaces the builder and counts the free places behind it. -/
theorem buildersAreOpenedAndDiscarded : Obligations.BuildersAreOpenedAndDiscarded := by
  intro s tag l free x opened discarded
  refine ⟨fun h => ?_, fun h hb => ?_, fun h hb => ?_⟩
  · exact answers_of_entry h (act := schedOpen) rfl rfl (by decide) (schedOpen_eq (s := s.onHli Hli.popBuffer))
  · exact answers_of_entry h (act := schedDiscard) rfl rfl (by decide) (schedDiscard_eq (s := s.onHli Hli.popBuffer) hb)
  · exact answers_of_entry h (act := schedDiscard) rfl rfl (by decide) (schedDiscard_refuses (s := s.onHli Hli.popBuffer) hb)

/-! ## The entries of SCHED_ADD -/

/-- An entry that passes its checks in a state: a slot of 1 to 31 defined on the lane, and a phase below the divider (R72, R74). -/
def Entry.Passes (s : State) (l : LaneId) (e : Entry) : Prop :=
  e.slot ≠ 0 ∧ s.slot ⟨l, e.slot⟩ ≠ .undefined ∧ e.phase < 2 ^ e.exponent.val

theorem entryOf_undefined {k : SlotId} (hk : k ≠ 0) (hu : s.slot ⟨l, k⟩ = .undefined) (timing : Byte) :
    entryOf s l (byte k.val) timing = .error .undefinedSlot := by
  simp only [entryOf, userSlotOf_byte hk, hu]

theorem entryOf_badTiming {k : SlotId} {timing : Byte} (hk : k ≠ 0) (hd : s.slot ⟨l, k⟩ ≠ .undefined) (ht : timingOf timing = none) :
    entryOf s l (byte k.val) timing = .error .badValue := by
  simp only [entryOf, userSlotOf_byte hk, ht]

theorem timingOf_eq_none {b : Byte} (h : 5 ≤ b.toNat % 16 ∨ 2 ^ (b.toNat % 16) ≤ b.toNat / 16) : timingOf b = none := by
  unfold timingOf
  simp only
  split
  · exact if_neg (by omega)
  · rfl

theorem Entry.Passes.entryOf {e : Entry} (h : e.Passes s l) : entryOf s l (byte e.slot.val) e.timing = .ok e := by
  obtain ⟨hk, hd, hp⟩ := h
  simp only [Machine.entryOf, userSlotOf_byte hk, timingOf_timing hp]

/-- Entries that pass come before what follows them (R74, R187). -/
theorem entriesOf_append {before : List Entry} (h : ∀ e ∈ before, e.Passes s l) (rest : List Byte) :
    entriesOf s l (before.flatMap Entry.bytes ++ rest) = (entriesOf s l rest).map (before ++ ·) := by
  induction before with
  | nil =>
    rw [List.flatMap_nil, List.nil_append]
    cases entriesOf s l rest <;> rfl
  | cons e before ih =>
    have he := (h e List.mem_cons_self).entryOf
    have ih := ih fun e' h' => h e' (List.mem_cons_of_mem e h')
    simp only [List.flatMap_cons, Entry.bytes, List.cons_append, List.nil_append, entriesOf, he, ih]
    cases entriesOf s l rest <;> rfl

theorem entriesOf_eq {entries : List Entry} (h : ∀ e ∈ entries, e.Passes s l) :
    entriesOf s l (entries.flatMap Entry.bytes) = .ok entries := by
  have appended := entriesOf_append h []
  rw [List.append_nil] at appended
  rw [appended]
  exact congrArg Except.ok (List.append_nil entries)

/-- The first entry that fails decides the refusal (R74, R187). -/
theorem entriesOf_fails {before : List Entry} (h : ∀ e ∈ before, e.Passes s l) {slot timing : Byte} {status : Status}
    (he : entryOf s l slot timing = .error status) (rest : List Byte) :
    entriesOf s l (before.flatMap Entry.bytes ++ slot :: timing :: rest) = .error status := by
  rw [entriesOf_append h, entriesOf, he]
  rfl

theorem length_entryBytes (es : List Entry) : (es.flatMap Entry.bytes).length = 2 * es.length := by
  induction es with
  | nil => rfl
  | cons e es ih => simp only [List.flatMap_cons, List.length_append, ih, Entry.bytes, List.length_cons, List.length_nil]; omega

/-! ## SCHED_ADD -/

theorem bodyLengthOk_schedAdd {n : Nat} (h3 : 3 ≤ n) (h49 : n ≤ 49) (hodd : n % 2 = 1) : bodyLengthOk 0x29 n = true := by
  simp [bodyLengthOk, h3, h49, hodd]

theorem schedAdd_notOpen (hb : (s.lane l).schedules.builder = none) (carried : List Byte) :
    schedAdd (byte l.val :: carried) s = refuse .notOpen s := by
  simp only [schedAdd, withLane, laneOf_byte, hb]

theorem schedAdd_fails {held : List Entry} {carried : List Byte} {status : Status} (hb : (s.lane l).schedules.builder = some held)
    (he : entriesOf s l carried = .error status) : schedAdd (byte l.val :: carried) s = refuse status s := by
  simp only [schedAdd, withLane, laneOf_byte, hb, he]

theorem schedAdd_noSpace {held entries : List Entry} {carried : List Byte} (hb : (s.lane l).schedules.builder = some held)
    (he : entriesOf s l carried = .ok entries) (hfull : 48 < held.length + entries.length ∨ s.poolFree < entries.length) :
    schedAdd (byte l.val :: carried) s = refuse .noSpace s := by
  simp only [schedAdd, withLane, laneOf_byte, hb, he]
  exact if_neg (by omega)

theorem schedAdd_appends {held entries : List Entry} {carried : List Byte} (hb : (s.lane l).schedules.builder = some held)
    (he : entriesOf s l carried = .ok entries) (hroom : held.length + entries.length ≤ 48) (hfree : entries.length ≤ s.poolFree) :
    schedAdd (byte l.val :: carried) s =
      accept [byte (held.length + entries.length), byte (96 - (s.places + entries.length))]
        (s.setLane l { s.lane l with schedules := { (s.lane l).schedules with builder := some (held ++ entries) } }) := by
  simp only [schedAdd, withLane, laneOf_byte, hb, he]
  rw [if_pos ⟨hroom, hfree⟩, State.poolFree_eq, State.places_append hb]
  rfl

/-- Settles O29: the builder is looked at first, then the entries one by one, and then the room for all of them. -/
theorem schedAddAppendsWholeOrNothing : Obligations.SchedAddAppendsWholeOrNothing := by
  refine ⟨?_, ?_, ?_⟩
  · intro s tag l carried body f h h3 h49 hodd hb
    exact answers_of_entry h (act := schedAdd) rfl (bodyLengthOk_schedAdd h3 h49 hodd) (by decide)
      (schedAdd_notOpen (s := s.onHli Hli.popBuffer) hb carried)
  · intro s tag l held before k timing rest hk body f h h49 hodd hb passes
    have h3 : 3 ≤ body.length := by simp only [body, List.length_append, List.length_cons]; omega
    have refuses {status : Status} (he : entryOf s l (byte k.val) timing = .error status) : Refuses (.schedAdd tag body) f s status :=
      answers_of_entry h (act := schedAdd) rfl (bodyLengthOk_schedAdd h3 h49 hodd) (by decide)
        (schedAdd_fails (s := s.onHli Hli.popBuffer) hb (entriesOf_fails (s := s.onHli Hli.popBuffer) passes he rest))
    refine ⟨fun hu => refuses (entryOf_undefined hk hu timing), fun hd ht => refuses (entryOf_badTiming hk hd (timingOf_eq_none ht))⟩
  · intro s tag l entries hne h24 passes body f h x places
    have some_entry : 1 ≤ entries.length := List.length_pos_iff.mpr hne
    have hlen : body.length = 2 * entries.length + 1 := by simp only [body, List.length_cons, length_entryBytes]
    have free : (s.onHli Hli.popBuffer).poolFree = 96 - places s := s.poolFree_eq
    have entry {status fields u} (hact : schedAdd body (s.onHli Hli.popBuffer) = (u.onHli Hli.popBuffer, ⟨status, fields⟩)) :
        Answers (.schedAdd tag body) f s status fields u :=
      answers_of_entry h rfl (bodyLengthOk_schedAdd (by omega) (by omega) (by omega)) (by decide) hact
    have carried := entriesOf_eq (s := s.onHli Hli.popBuffer) passes
    exact ⟨fun held hb hfull => entry (schedAdd_noSpace hb carried (by omega)),
      fun held hb hroom hfree => entry (schedAdd_appends hb carried hroom (by omega))⟩

/-! ## SCHED_COMMIT -/

/-- The state once a commit has been swapped in, with its report (R75, R85). -/
def State.committed (s : State) (l : LaneId) (entries : List Entry) : State :=
  { s.setLane l
      { s.lane l with
        schedules := { builder := none, staged := none, active := entries }
        round := { (s.lane l).round with position := 0 } } with
    reports := s.reports.handOver (.scheduleSwapped l (s.lane l).round.counter) }

theorem swapStaged_commit (s : State) (l : LaneId) (entries : List Entry) :
    swapStaged l (s.onSchedules l fun x => { x with builder := none, staged := some entries }) = s.committed l entries := by
  rw [State.onSchedules, swapStaged_eq (State.lane_onLane_self ..), State.onLane, State.setLane_setLane]
  rfl

theorem Lane.swapsAtOnce_iff (L : Lane) : L.swapsAtOnce = true ↔
    L.condition = .halted ∨ L.condition = .running ∧ L.schedules.active = [] ∧ L.transaction = none := by
  simp [Lane.swapsAtOnce, and_assoc]

theorem schedCommit_notOpen (hb : (s.lane l).schedules.builder = none) : schedCommit [byte l.val] s = refuse .notOpen s := by
  simp only [schedCommit, withLane, laneOf_byte, hb]

/-- A commit that swaps at once; a RUNNING lane then chooses (R75, R84, R87). -/
theorem schedCommit_swaps {entries : List Entry} (hb : (s.lane l).schedules.builder = some entries) (hs : (s.lane l).swapsAtOnce = true) :
    schedCommit [byte l.val] s =
      accept [1] (if (s.lane l).condition = .running then choose l (s.committed l entries) else s.committed l entries) := by
  simp only [schedCommit, withLane, laneOf_byte, hb, hs, if_true, swapStaged_commit]
  rfl

theorem schedCommit_halted {entries : List Entry} (hb : (s.lane l).schedules.builder = some entries) (hc : (s.lane l).condition = .halted) :
    schedCommit [byte l.val] s = accept [1] (s.committed l entries) := by
  rw [schedCommit_swaps hb ((s.lane l).swapsAtOnce_iff.mpr (.inl hc)), if_neg (by simp [hc])]

theorem schedCommit_running {entries : List Entry} (hb : (s.lane l).schedules.builder = some entries) (hc : (s.lane l).condition = .running)
    (ha : (s.lane l).schedules.active = []) (ht : (s.lane l).transaction = none) :
    schedCommit [byte l.val] s = accept [1] (choose l (s.committed l entries)) := by
  rw [schedCommit_swaps hb ((s.lane l).swapsAtOnce_iff.mpr (.inr ⟨hc, ha, ht⟩)), if_pos hc]

/-- A commit that waits for its swap (R75). -/
theorem schedCommit_stages {entries : List Entry} (hb : (s.lane l).schedules.builder = some entries)
    (hs : ¬ (s.lane l).swapsAtOnce = true) :
    schedCommit [byte l.val] s = accept [0]
      (s.setLane l { s.lane l with schedules := { (s.lane l).schedules with builder := none, staged := some entries } }) := by
  simp only [schedCommit, withLane, laneOf_byte, hb, hs]
  rfl

/-- Settles O30: the condition, the active schedule and the transaction decide whether the schedule staged is swapped in. -/
theorem schedCommitStagesOrSwaps : Obligations.SchedCommitStagesOrSwaps := by
  intro s tag l h L c f
  have entry {status fields u} (hact : schedCommit [byte l.val] (s.onHli Hli.popBuffer) = (u.onHli Hli.popBuffer, ⟨status, fields⟩)) :
      Answers c f s status fields u := answers_of_entry h (act := schedCommit) rfl rfl (by decide) hact
  refine ⟨fun hb => entry (schedCommit_notOpen (s := s.onHli Hli.popBuffer) hb), ?_⟩
  intro entries hb swapped
  refine ⟨fun hc => entry (schedCommit_halted (s := s.onHli Hli.popBuffer) hb hc), fun hc ha ht => entry ?_,
    fun hh hr => entry (schedCommit_stages (s := s.onHli Hli.popBuffer) hb fun hs => ?_)⟩
  · rw [← choose_onHli]
    exact schedCommit_running (s := s.onHli Hli.popBuffer) hb hc ha ht
  · rcases L.swapsAtOnce_iff.mp hs with hc | ⟨hc, ha, ht⟩
    · exact hh hc
    · exact (hr hc).elim (· ha) fun busy => by simp [ht] at busy

/-! ## READ_SCHEDULE -/

theorem scheduleFields_none (start : Nat) : scheduleFields none start = [0, 0, 0] := by
  simp only [scheduleFields, Option.getD_none, List.drop_nil, List.take_nil]
  rfl

theorem readSchedule_eq {which start : Byte} {staged : Bool} (hw : flagOf which = some staged) (hs : start.toNat ≤ 47) :
    readSchedule [byte l.val, which, start] s =
      accept (scheduleFields (if staged then (s.lane l).schedules.staged else some (s.lane l).schedules.active) start.toNat) s := by
  simp only [readSchedule, withLane, laneOf_byte, hw, inRange, Nat.zero_le, hs, and_self, if_true]

theorem readSchedule_refuses {which start : Byte} (h : 2 ≤ which.toNat ∨ 48 ≤ start.toNat) :
    readSchedule [byte l.val, which, start] s = refuse .badValue s := by
  simp only [readSchedule, withLane, laneOf_byte]
  split
  · rename_i hw hs
    rcases h with h | h
    · rw [flagOf_of_le h] at hw; cases hw
    · have out : inRange start 0 47 = none := if_neg (by omega)
      rw [out] at hs; cases hs
  · rfl

/-- Settles O31: the fields are those of the schedule asked for, and of an absent one none but the three counts. -/
theorem readScheduleAnswers : Obligations.ReadScheduleAnswers := by
  intro s tag which start l body f h fields
  have entry {status fields u} (hact : readSchedule body (s.onHli Hli.popBuffer) = (u.onHli Hli.popBuffer, ⟨status, fields⟩)) :
      Answers (.readSchedule tag body) f s status fields u := answers_of_entry h (act := readSchedule) rfl rfl (by decide) hact
  refine ⟨fun hbad => entry (readSchedule_refuses hbad), fun hs hw => entry ?_, fun es hs hw hst => entry ?_, fun hs hw hst => entry ?_⟩
  · rw [readSchedule_eq (staged := false) (by rw [hw]; rfl) hs]
    rfl
  · rw [readSchedule_eq (staged := true) (by rw [hw]; rfl) hs, if_pos rfl, State.lane_onHli, hst]
    rfl
  · rw [readSchedule_eq (staged := true) (by rw [hw]; rfl) hs, if_pos rfl, State.lane_onHli, hst]
    exact congrArg (accept · _) (scheduleFields_none _)

end Sys2Proof.Machine
end

section
/-!
The one-shot requests: SEND_ONCE and WITHDRAW (R93 to R95, R100, R190, R191).
-/

namespace Sys2Proof.Machine

open Sys2Proof

variable {l : LaneId} {s : State}

/-! ## The handles passed over (R93) -/

theorem repeat_succ_nextNumber (m n : Nat) : Nat.repeat nextNumber (m + 1) n = Nat.repeat nextNumber m (nextNumber n) := by
  induction m with
  | zero => rfl
  | succ m ih => exact congrArg nextNumber ih

/-- The handle reached lies some numbers on, and every number passed over is held. -/
theorem exists_passOver_eq_repeat (held : List Nat) (fuel n : Nat) : ∃ k, passOver held fuel n = Nat.repeat nextNumber k n
    ∧ ∀ m, m < k → Nat.repeat nextNumber m n ∈ held := by
  induction fuel generalizing n with
  | zero => exact ⟨0, rfl, nofun⟩
  | succ fuel ih =>
    by_cases hn : n ∈ held
    · obtain ⟨k, reached, passed⟩ := ih (nextNumber n)
      refine ⟨k + 1, ?_, fun m hm => ?_⟩
      · rw [repeat_succ_nextNumber, ← reached, passOver, if_pos (List.contains_iff_mem.mpr hn)]
      · cases m with
        | zero => exact hn
        | succ m => exact repeat_succ_nextNumber m n ▸ passed m (Nat.lt_of_succ_lt_succ hm)
    · exact ⟨0, if_neg (by simpa using hn), nofun⟩

/-- The handle issued is the first from the next one on that no one-shot holds (R93). -/
theorem exists_freeHandle_eq_repeat (hl : LanesWf s) (hh : HandlesWf s) :
    ∃ k, freeHandle s.handles s.nextHandle = Nat.repeat nextNumber k s.nextHandle ∧ Nat.repeat nextNumber k s.nextHandle ∉ s.handles
      ∧ ∀ m, m < k → Nat.repeat nextNumber m s.nextHandle ∈ s.handles := by
  obtain ⟨k, reached, passed⟩ := exists_passOver_eq_repeat s.handles s.handles.length s.nextHandle
  have free : freeHandle s.handles s.nextHandle ∉ s.handles :=
    freeHandle_not_mem hh.next (hl.length_handles_le.trans_lt (by decide))
  exact ⟨k, reached, reached ▸ free, passed⟩

/-! ## The checks of SEND_ONCE (R94) -/

theorem Condition.takesOneShots_iff (c : Condition) :
    c.takesOneShots = true ↔ c = .halted ∨ c = .running ∨ c = .halting ∨ c = .waking := by
  cases c <;> decide

theorem oneShotOf_called {r : SlotRecord} (h : (∃ p, r = .polled p) ∨ ∃ p, r = .contended p) (fed : Bool) (data : List Byte) :
    oneShotOf r fed data = if data = [] then .ok (.poll, none) else .error .badValue := by
  rcases h with ⟨p, rfl⟩ | ⟨p, rfl⟩ <;> rfl

theorem oneShotOf_published {r : SlotRecord} {p : PublishedRec} (h : r = .published p) (data : List Byte) :
    oneShotOf r false data = if data.length = p.length then .ok (.publish, some data) else .error .badValue := by
  subst h; rfl

theorem oneShotOf_routed {r : SlotRecord} {p : PublishedRec} (h : r = .published p) (data : List Byte) :
    oneShotOf r true data = .error .routed := by
  subst h; rfl

section

variable {k : SlotId} (hk : k ≠ 0) {data : List Byte}

include hk

theorem sendOnce_undefined (hu : s.slot ⟨l, k⟩ = .undefined) : sendOnce (byte l.val :: byte k.val :: data) s = refuse .undefinedSlot s := by
  simp only [sendOnce, withLane, laneOf_byte, withUserSlot, userSlotOf_byte hk, hu, if_true]

theorem sendOnce_badState (hd : s.slot ⟨l, k⟩ ≠ .undefined) (hc : (s.lane l).condition.takesOneShots = false) :
    sendOnce (byte l.val :: byte k.val :: data) s = refuse .badState s := by
  simp only [sendOnce, withLane, laneOf_byte, withUserSlot, userSlotOf_byte hk, hd, hc, if_false, Bool.not_false, if_true]

variable (hc : (s.lane l).condition.takesOneShots = true)

include hc

/-- Steps 5 and 6 of R94 refuse. -/
theorem sendOnce_refuses {status : Status} (hd : s.slot ⟨l, k⟩ ≠ .undefined)
    (ho : oneShotOf (s.slot ⟨l, k⟩) (s.routeFed ⟨l, k⟩) data = .error status) :
    sendOnce (byte l.val :: byte k.val :: data) s = refuse status s := by
  simp only [sendOnce, withLane, laneOf_byte, withUserSlot, userSlotOf_byte hk, hd, hc, ho, if_false, Bool.not_true, Bool.false_eq_true]

/-- Steps 5 and 6 of R94 accept: the room in the queue decides. -/
theorem sendOnce_passes {kind : OneShotKind} {carried : Option (List Byte)}
    (ho : oneShotOf (s.slot ⟨l, k⟩) (s.routeFed ⟨l, k⟩) data = .ok (kind, carried)) :
    sendOnce (byte l.val :: byte k.val :: data) s =
      if (s.lane l).oneShots.length < 8 then queueOneShot l k kind carried s else refuse .queueFull s := by
  have hd : s.slot ⟨l, k⟩ ≠ .undefined := by
    intro hu
    rw [hu] at ho
    cases ho
  simp only [sendOnce, withLane, laneOf_byte, withUserSlot, userSlotOf_byte hk, hd, hc, ho, if_false, Bool.not_true, Bool.false_eq_true]

end

theorem State.routeFed_eq_false {r : SlotRef} (h : ¬ RouteFed s r) : s.routeFed r = false :=
  Bool.eq_false_iff.mpr (mt (s.routeFed_iff r).mp h)

theorem bodyLengthOk_sendOnce {lane slot : Byte} {data : List Byte} (h : data.length ≤ 12) :
    bodyLengthOk 0x30 (lane :: slot :: data).length = true := by
  have upper : data.length + 2 ≤ 14 := Nat.add_le_add_right h 2
  simp [bodyLengthOk, upper]

/-- Settles O32: the slot, the condition, the kind with its data and the room in the queue are looked at in this order. -/
theorem sendOnceIsCheckedInOrder : Obligations.SendOnceIsCheckedInOrder := by
  intro s tag l k data hk h12 body f c L open_ polled contended h
  have takes (ho : open_) : L.condition.takesOneShots = true := L.condition.takesOneShots_iff.mpr ho
  have entry {status : Status} (hact : sendOnce body (s.onHli Hli.popBuffer) = refuse status (s.onHli Hli.popBuffer)) :
      Refuses c f s status := answers_of_entry h (act := sendOnce) rfl (bodyLengthOk_sendOnce h12) (by decide) hact
  have form {status : Status} (ho : open_) (hd : s.slot ⟨l, k⟩ ≠ .undefined)
      (hf : oneShotOf (s.slot ⟨l, k⟩) (s.routeFed ⟨l, k⟩) data = .error status) : Refuses c f s status :=
    entry (sendOnce_refuses (s := s.onHli Hli.popBuffer) hk (takes ho) hd hf)
  have full {kind carried} (ho : open_) (hf : oneShotOf (s.slot ⟨l, k⟩) (s.routeFed ⟨l, k⟩) data = .ok (kind, carried))
      (h8 : 8 ≤ L.oneShots.length) : Refuses c f s .queueFull :=
    entry ((sendOnce_passes (s := s.onHli Hli.popBuffer) hk (takes ho) hf).trans (if_neg (Nat.not_lt.mpr h8)))
  have unfed {p} (hp : s.slot ⟨l, k⟩ = .published p) (hr : ¬ RouteFed s ⟨l, k⟩) :
      oneShotOf (s.slot ⟨l, k⟩) (s.routeFed ⟨l, k⟩) data =
        if data.length = p.length then .ok (.publish, some data) else .error .badValue :=
    State.routeFed_eq_false hr ▸ oneShotOf_published hp data
  refine ⟨fun hu => ?_, fun hd ho => ?_, fun ho p hp hr => ?_, fun ho p hp hr hlen => ?_, fun ho hcalled hdata => ?_,
    fun ho hcalled hdata h8 => ?_, fun ho p hp hr hlen h8 => ?_⟩
  · exact entry (sendOnce_undefined (s := s.onHli Hli.popBuffer) hk hu)
  · have closed : L.condition.takesOneShots = false := Bool.eq_false_iff.mpr (mt L.condition.takesOneShots_iff.mp ho)
    exact entry (sendOnce_badState (s := s.onHli Hli.popBuffer) hk hd closed)
  · have fed : s.routeFed ⟨l, k⟩ = true := (s.routeFed_iff _).mpr hr
    exact form ho (by simp [hp]) (fed ▸ oneShotOf_routed hp data)
  · exact form ho (by simp [hp]) ((unfed hp hr).trans (if_neg hlen))
  · have defined : s.slot ⟨l, k⟩ ≠ .undefined := by rcases hcalled with ⟨p, hp⟩ | ⟨p, hp⟩ <;> simp [hp]
    exact form ho defined ((oneShotOf_called hcalled _ _).trans (if_neg hdata))
  · exact full ho ((oneShotOf_called hcalled _ _).trans (if_pos hdata)) h8
  · exact full ho ((unfed hp hr).trans (if_pos hlen)) h8

/-! ## The one-shot queued (R93, R95) -/

/-- Where no transaction is in progress on a RUNNING lane, the choice follows the record queued. -/
theorem queueOneShot_eq (k : SlotId) (kind : OneShotKind) (data : Option (List Byte)) (s : State) :
    let handle := freeHandle s.handles s.nextHandle
    let queued := s.queued l ⟨handle, k, kind, data⟩
    let u := if (s.lane l).condition = .running ∧ (s.lane l).transaction = none then choose l queued else queued
    queueOneShot l k kind data s = accept [byte handle, byte (handle / 256), byte (u.lane l).oneShots.length] u := by
  simp only [queueOneShot, State.busy, Bool.not_eq_true', Option.isSome_eq_false_iff, Option.isNone_iff_eq_none]
  rfl

theorem State.queued_onHli (s : State) (g : Hli → Hli) (l : LaneId) (o : OneShot) :
    (s.onHli g).queued l o = (s.queued l o).onHli g := rfl

/-- Settles O33: the handle issued is the first free one, and the choice leaves the host link to the handler. -/
theorem sendOnceIssuesAHandle : Obligations.SendOnceIssuesAHandle := by
  intro s tag l k data kind carried hk h12 hh hl body f c L h hc h8 hform
  have form : oneShotOf (s.slot ⟨l, k⟩) (s.routeFed ⟨l, k⟩) data = .ok (kind, carried) := by
    rcases hform with ⟨hdata, rfl, rfl, hcalled⟩ | ⟨rfl, rfl, hr, p, hp, hlen⟩
    · rw [oneShotOf_called hcalled, if_pos hdata]
    · rw [State.routeFed_eq_false hr, oneShotOf_published hp, if_pos hlen]
  obtain ⟨n, issued, free, passed⟩ := exists_freeHandle_eq_repeat hl hh
  refine ⟨n, free, passed, answers_of_entry h (act := sendOnce) rfl (bodyLengthOk_sendOnce h12) (by decide) ?_⟩
  rw [sendOnce_passes (s := s.onHli Hli.popBuffer) hk (L.condition.takesOneShots_iff.mpr hc) form]
  refine (if_pos h8).trans ((queueOneShot_eq k kind carried (s.onHli Hli.popBuffer)).trans ?_)
  have handle : freeHandle (s.onHli Hli.popBuffer).handles (s.onHli Hli.popBuffer).nextHandle
      = Nat.repeat nextNumber n s.nextHandle := issued
  simp only [handle, State.queued_onHli, choose_onHli, ← apply_ite (fun u : State => u.onHli Hli.popBuffer), State.lane_onHli]
  rfl

/-! ## WITHDRAW (R100) -/

theorem Lane.queues_iff (L : Lane) (handle : Nat) : L.queues handle = true ↔ ∃ o ∈ L.oneShots, o.handle = handle := by
  simp only [Lane.queues, List.any_eq_true, beq_iff_eq]

theorem Lane.runs_iff (L : Lane) (handle : Nat) :
    L.runs handle = true ↔ ∃ t kind, L.transaction = some t ∧ t.oneShot = some (handle, kind) := by
  simp [Lane.runs, Option.bind_eq_some_iff]

/-- The first record with a handle leaves the queue. -/
theorem eraseP_handle {before after : List OneShot} {o : OneShot} {handle : Nat} (ho : o.handle = handle)
    (hbefore : ∀ x ∈ before, x.handle ≠ handle) :
    (before ++ o :: after).eraseP (fun x => x.handle == handle) = before ++ after := by
  rw [List.eraseP_append_right _ (by simpa using hbefore), List.eraseP_cons_of_pos (by simpa using ho)]

/-- The search for the lane finds the only one whose queue holds the handle. -/
theorem find?_queues {handle : Nat} (hl : (s.lane l).queues handle = true) (only : ∀ m, (s.lane m).queues handle = true → m = l) :
    (List.finRange 4).find? (fun m => (s.lane m).queues handle) = some l := by
  cases hf : (List.finRange 4).find? fun m => (s.lane m).queues handle with
  | none => exact absurd hl (List.find?_eq_none.mp hf l (List.mem_finRange l))
  | some m => exact congrArg some (only m (List.find?_some (p := fun m => (s.lane m).queues handle) hf))

theorem withdraw_removes {low high : Byte} (hl : (s.lane l).queues (word16 low high) = true)
    (only : ∀ m, (s.lane m).queues (word16 low high) = true → m = l) {before after : List OneShot} {o : OneShot}
    (hq : (s.lane l).oneShots = before ++ o :: after) (ho : o.handle = word16 low high)
    (hbefore : ∀ x ∈ before, x.handle ≠ word16 low high) :
    withdraw [low, high] s = accept [byte l.val]
      ((s.setLane l { s.lane l with oneShots := before ++ after }).report (.oneShotDone l (word16 low high) .withdrawn none none)) := by
  simp only [withdraw, find?_queues hl only, State.onLane, hq, eraseP_handle ho hbefore]

theorem find?_queues_eq_none {handle : Nat} (hq : ∀ l, ¬ (s.lane l).queues handle = true) :
    (List.finRange 4).find? (fun m => (s.lane m).queues handle) = none :=
  List.find?_eq_none.mpr fun m _ => hq m

theorem any_runs_iff (s : State) (handle : Nat) :
    ((List.finRange 4).any fun m => (s.lane m).runs handle) = true ↔ ∃ l, (s.lane l).runs handle = true := by
  simp only [List.any_eq_true, List.mem_finRange, true_and]

theorem withdraw_tooLate {low high : Byte} (hq : ∀ l, ¬ (s.lane l).queues (word16 low high) = true)
    (hr : ∃ l, (s.lane l).runs (word16 low high) = true) : withdraw [low, high] s = refuse .tooLate s := by
  simp only [withdraw, find?_queues_eq_none hq, (any_runs_iff ..).mpr hr, if_true]

theorem withdraw_unknownHandle {low high : Byte} (hq : ∀ l, ¬ (s.lane l).queues (word16 low high) = true)
    (hr : ∀ l, ¬ (s.lane l).runs (word16 low high) = true) : withdraw [low, high] s = refuse .unknownHandle s := by
  simp only [withdraw, find?_queues_eq_none hq, any_runs_iff, not_exists.mpr hr, if_false]

/-- Settles O34: the queues are searched first, and then the one-shots that run. -/
theorem withdrawRemovesOrRefuses : Obligations.WithdrawRemovesOrRefuses := by
  intro s tag low high body f c handle queuedOn runsOn h
  have entry {status fields u} (hact : withdraw body (s.onHli Hli.popBuffer) = (u.onHli Hli.popBuffer, ⟨status, fields⟩)) :
      Answers c f s status fields u := answers_of_entry h (act := withdraw) rfl rfl (by decide) hact
  have queues (l : LaneId) : (s.lane l).queues handle = true ↔ queuedOn l := (s.lane l).queues_iff handle
  have runs (l : LaneId) : (s.lane l).runs handle = true ↔ runsOn l := (s.lane l).runs_iff handle
  refine ⟨fun l before o after hl ho hbefore only => ?_, fun hq hr => ?_, fun hq hr => ?_⟩
  · have queued : queuedOn l := ⟨o, by simp [hl], ho⟩
    exact entry (withdraw_removes (s := s.onHli Hli.popBuffer) ((queues l).mpr queued) (fun m hm => only m ((queues m).mp hm)) hl ho hbefore)
  · exact entry (withdraw_tooLate (s := s.onHli Hli.popBuffer) (fun l => mt (queues l).mp (hq l)) (hr.imp fun l => (runs l).mpr))
  · exact entry (withdraw_unknownHandle (s := s.onHli Hli.popBuffer) (fun l => mt (queues l).mp (hq l)) fun l => mt (runs l).mp (hr l))

end Sys2Proof.Machine
end

section
/-!
The route requests, ROUTE_SET, ROUTE_CLEAR and READ_ROUTES, and HELLO (R105 to R110, R172, R192, R193).
-/

namespace Sys2Proof.Machine

open Sys2Proof

variable {s : State} {i : Fin 16} {t : Route}

/-! ## The places of the route table -/

theorem State.toList_routes (s : State) : s.routes.toList = (List.finRange 16).map s.route := by
  simp [List.ext_getElem_iff, State.route]

/-- The layout of a place that holds a route sets the high bit of its second byte for ON_CHANGE (R193). -/
theorem routePlace_some (t : Route) : routePlace (some t) =
    [byte (t.src.slot.val + 32 * t.src.lane.val + 128),
      byte (t.dst.slot.val + 32 * t.dst.lane.val + 128 * (if t.mode = .onChange then 1 else 0))] := by
  have low : t.dst.slot.val + 32 * t.dst.lane.val < 2 ^ 7 := by omega
  cases hm : t.mode
  · simp [routePlace, hm, RouteMode.code]
  · have high : byte (t.dst.slot.val + 32 * t.dst.lane.val) ||| 0x80#8 = byte (t.dst.slot.val + 32 * t.dst.lane.val + 128) := by
      refine BitVec.eq_of_toNat_eq ?_
      rw [BitVec.toNat_or, byte_toNat_of_lt (by omega), byte_toNat_of_lt (by omega), Nat.or_comm]
      exact (Nat.two_pow_add_eq_or_of_lt low 1).symm.trans (Nat.add_comm ..)
    simpa [routePlace, hm, RouteMode.code] using high

/-- Settles O13: HELLO answers constants, and READ_ROUTES the places one by one. -/
theorem helloAndReadRoutesAnswer : Obligations.HelloAndReadRoutesAnswer := by
  intro s tag
  refine ⟨fun h => answers_of_entry h (act := hello) rfl rfl (by decide) rfl,
    fun h => answers_of_entry h (act := readRoutes) rfl rfl (by decide) ?_⟩
  have places : s.routes.toList.flatMap routePlace = (List.finRange 16).flatMap fun i => routePlace (s.route i) := by
    rw [s.toList_routes, List.flatMap_map]
  refine congrArg (accept · (s.onHli Hli.popBuffer)) (places.trans (congrArg (List.flatMap · _) (funext fun i => ?_)))
  cases s.route i with
  | none => rfl
  | some t => exact routePlace_some t

/-! ## The bytes of ROUTE_SET (steps 1 to 4 of R107) -/

theorem indexOf_of_le {b : Byte} (h : 16 ≤ b.toNat) : indexOf b = none := dif_neg (Nat.not_lt.mpr h)

theorem exists_indexOf {b : Byte} (h : b.toNat < 16) : ∃ i, indexOf b = some i := ⟨_, dif_pos h⟩

theorem exists_laneOf {b : Byte} (h : b.toNat < 4) : ∃ l, laneOf b = some l := ⟨_, dif_pos h⟩

theorem exists_userSlotOf {b : Byte} (h0 : b ≠ 0) (h : b.toNat < 32) : ∃ k, userSlotOf b = some k := by
  have hk : (⟨b.toNat, h⟩ : SlotId) ≠ 0 := fun e => h0 (BitVec.eq_of_toNat_eq (Fin.mk.inj e))
  exact ⟨⟨b.toNat, h⟩, by simp [userSlotOf, slotOf, h, hk]⟩

theorem userSlotOf_of_not {b : Byte} (h : ¬ (b ≠ 0 ∧ b.toNat < 32)) : userSlotOf b = none :=
  userSlotOf_eq_none (by rwa [not_and_or, not_not, Nat.not_lt] at h)

theorem routeModeOf_of_le {b : Byte} (h : 2 ≤ b.toNat) : routeModeOf b = none := by
  have h0 : b ≠ 0 := by rintro rfl; simp at h
  have h1 : b ≠ 1 := by rintro rfl; simp at h
  rw [routeModeOf, if_neg h0, if_neg h1]

section

variable {index srcLane srcSlot dstLane dstSlot mode : Byte}

theorem routeSet_badIndex (h : 16 ≤ index.toNat) :
    routeSet [index, srcLane, srcSlot, dstLane, dstSlot, mode] s = refuse .badValue s := by
  simp only [routeSet, indexOf_of_le h]

variable (hi : index.toNat < 16)

include hi

theorem routeSet_badLane (h : ¬ (srcLane.toNat < 4 ∧ dstLane.toNat < 4)) :
    routeSet [index, srcLane, srcSlot, dstLane, dstSlot, mode] s = refuse .badLane s := by
  obtain ⟨i, hi⟩ := exists_indexOf hi
  by_cases hs : srcLane.toNat < 4
  · obtain ⟨sl, hsl⟩ := exists_laneOf hs
    have hd : laneOf dstLane = none := laneOf_of_le (Nat.not_lt.mp fun hd => h ⟨hs, hd⟩)
    simp only [routeSet, hi, withLane, hsl, hd]
  · simp only [routeSet, hi, withLane, laneOf_of_le (Nat.not_lt.mp hs)]

variable (hl : srcLane.toNat < 4 ∧ dstLane.toNat < 4)

include hl

theorem routeSet_badSlot (h : ¬ (srcSlot ≠ 0 ∧ srcSlot.toNat < 32 ∧ dstSlot ≠ 0 ∧ dstSlot.toNat < 32)) :
    routeSet [index, srcLane, srcSlot, dstLane, dstSlot, mode] s = refuse .badValue s := by
  obtain ⟨i, hi⟩ := exists_indexOf hi
  obtain ⟨sl, hsl⟩ := exists_laneOf hl.1
  obtain ⟨dl, hdl⟩ := exists_laneOf hl.2
  by_cases hs : srcSlot ≠ 0 ∧ srcSlot.toNat < 32
  · obtain ⟨sk, hsk⟩ := exists_userSlotOf hs.1 hs.2
    have hd : userSlotOf dstSlot = none := userSlotOf_of_not fun hd => h ⟨hs.1, hs.2, hd⟩
    simp only [routeSet, hi, withLane, hsl, hdl, withUserSlot, hsk, hd]
  · simp only [routeSet, hi, withLane, hsl, hdl, withUserSlot, userSlotOf_of_not hs]

theorem routeSet_badMode (hs : srcSlot ≠ 0 ∧ srcSlot.toNat < 32 ∧ dstSlot ≠ 0 ∧ dstSlot.toNat < 32) (h : 2 ≤ mode.toNat) :
    routeSet [index, srcLane, srcSlot, dstLane, dstSlot, mode] s = refuse .badValue s := by
  obtain ⟨hs0, hs32, hd0, hd32⟩ := hs
  obtain ⟨i, hi⟩ := exists_indexOf hi
  obtain ⟨sl, hsl⟩ := exists_laneOf hl.1
  obtain ⟨dl, hdl⟩ := exists_laneOf hl.2
  obtain ⟨sk, hsk⟩ := exists_userSlotOf hs0 hs32
  obtain ⟨dk, hdk⟩ := exists_userSlotOf hd0 hd32
  simp only [routeSet, hi, withLane, hsl, hdl, withUserSlot, hsk, hdk, routeModeOf_of_le h]

end

/-! ## The records and the routes held (steps 5 to 8 of R107) -/

theorem State.fedElsewhere_iff (s : State) (i : Fin 16) (dst : SlotRef) :
    s.fedElsewhere i dst = true ↔ ∃ j t, j ≠ i ∧ s.route j = some t ∧ t.dst = dst := by
  simp [State.fedElsewhere, Option.any_eq_true]

theorem routeRefusal_undefined (h : s.slot t.src = .undefined ∨ s.slot t.dst = .undefined) :
    routeRefusal s i t = some .undefinedSlot := by
  rcases h with h | h
  · simp only [routeRefusal, h]
  · cases hs : s.slot t.src <;> simp only [routeRefusal, hs, h]

/-- A source that gives a length rule and a published destination pass steps 5 and 6 of R107. -/
theorem routeRefusal_called {rule : LengthRule} {p : PublishedRec} (hs : (s.slot t.src).lengthRule = some rule)
    (hd : s.slot t.dst = .published p) : routeRefusal s i t =
      if rule ≠ .exact p.length then some .badValue else if s.fedElsewhere i t.dst then some .inUse else none := by
  cases hr : s.slot t.src <;> rw [hr] at hs
  case polled | contended =>
    obtain rfl := Option.some.inj hs
    simp only [routeRefusal, hr, hd]
  case undefined | published => cases hs

theorem routeRefusal_wrongKind (hs : s.slot t.src ≠ .undefined) (hd : s.slot t.dst ≠ .undefined)
    (h : (¬ ∃ rule, (s.slot t.src).lengthRule = some rule) ∨ ∀ p, s.slot t.dst ≠ .published p) :
    routeRefusal s i t = some .wrongKind := by
  cases hr : s.slot t.src with
  | undefined => exact absurd hr hs
  | published q => cases hp : s.slot t.dst with
    | undefined => exact absurd hp hd
    | polled | contended | published => simp only [routeRefusal, hr, hp]
  | polled q | contended q =>
    have unpublished := h.resolve_left fun hn => hn ⟨q.rule, by rw [hr]; rfl⟩
    cases hp : s.slot t.dst with
    | undefined => exact absurd hp hd
    | published p => exact absurd hp (unpublished p)
    | polled | contended => simp only [routeRefusal, hr, hp]

/-- The body of ROUTE_SET for a route at an index (Request bodies). -/
def Route.body (i : Fin 16) (t : Route) : List Byte :=
  [byte i.val, byte t.src.lane.val, byte t.src.slot.val, byte t.dst.lane.val, byte t.dst.slot.val, t.mode.code]

theorem routeSet_refuses {status : Status} (hs : t.src.slot ≠ 0) (hd : t.dst.slot ≠ 0) (h : routeRefusal s i t = some status) :
    routeSet (t.body i) s = refuse status s := by
  simp only [Route.body, routeSet, indexOf_byte, withLane, laneOf_byte, withUserSlot, userSlotOf_byte hs, userSlotOf_byte hd,
    routeModeOf_code, h]

/-- Settles O35: the bytes are looked at one by one, and then the records and the routes held. -/
theorem routeSetIsCheckedInOrder : Obligations.RouteSetIsCheckedInOrder := by
  refine ⟨?_, ?_⟩
  · intro s tag index srcLane srcSlot dstLane dstSlot mode body f c lanes slots h
    have entry {status} (hact : routeSet body (s.onHli Hli.popBuffer) = refuse status (s.onHli Hli.popBuffer)) :
        Refuses c f s status := answers_of_entry h (act := routeSet) rfl rfl (by decide) hact
    exact ⟨fun hi => entry (routeSet_badIndex hi), fun hi hl => entry (routeSet_badLane hi hl),
      fun hi hl hs => entry (routeSet_badSlot hi hl hs), fun hi hl hs hm => entry (routeSet_badMode hi hl hs hm)⟩
  · intro s tag i src dst mode hsrc hdst body f c sourceKind h
    have entry {status} (hr : routeRefusal (s.onHli Hli.popBuffer) i ⟨src, dst, mode⟩ = some status) : Refuses c f s status :=
      answers_of_entry h (act := routeSet) rfl rfl (by decide) (routeSet_refuses hsrc hdst hr)
    refine ⟨fun hu => entry (routeRefusal_undefined hu), fun hs hd hk => entry (routeRefusal_wrongKind hs hd hk),
      fun rule p hs hd hn => entry ((routeRefusal_called hs hd).trans (if_pos hn)), fun p hs hd hfed => entry ?_⟩
    exact (routeRefusal_called hs hd).trans ((if_neg (not_not.mpr rfl)).trans
      (if_pos ((State.fedElsewhere_iff (s.onHli Hli.popBuffer) i dst).mpr hfed)))

/-! ## ROUTE_SET accepted, and ROUTE_CLEAR -/

theorem routeSet_accepts {p : PublishedRec} (hs : t.src.slot ≠ 0) (hd : t.dst.slot ≠ 0) (h : routeRefusal s i t = none)
    (hp : s.slot t.dst = .published p) : routeSet (t.body i) s = accept [flag (s.route i).isSome]
      ((s.setRoute i (some t)).setSlot t.dst (.published { p with failsafeActive := false })) := by
  simp only [Route.body, routeSet, indexOf_byte, withLane, laneOf_byte, withUserSlot, userSlotOf_byte hs, userSlotOf_byte hd,
    routeModeOf_code, h, State.clearFailsafeActive, State.slot_setRoute, hp]

theorem routeClear_refuses {index : Byte} (h : 16 ≤ index.toNat) : routeClear [index] s = refuse .badValue s := by
  simp only [routeClear, indexOf_of_le h]

theorem routeClear_eq (i : Fin 16) (s : State) :
    routeClear [byte i.val] s = accept [flag (s.route i).isSome] (s.setRoute i none) := by
  simp only [routeClear, indexOf_byte]

/-- Settles O36: no check refuses the route, and the destination is the published record whose flag is cleared. -/
theorem routesAreSetAndCleared : Obligations.RoutesAreSetAndCleared := by
  refine ⟨?_, ?_⟩
  · intro s tag i src dst mode p hsrc hdst hs hd hfed body h
    have unfed : ¬ s.fedElsewhere i dst = true := fun he => by
      obtain ⟨j, t, hj, ht, hdst⟩ := (s.fedElsewhere_iff i dst).mp he
      exact hj (hfed j t ht hdst)
    have accepted : routeRefusal (s.onHli Hli.popBuffer) i ⟨src, dst, mode⟩ = none :=
      (routeRefusal_called hs hd).trans ((if_neg (not_not.mpr rfl)).trans (if_neg unfed))
    exact answers_of_entry h (act := routeSet) rfl rfl (by decide) (routeSet_accepts hsrc hdst accepted hd)
  · intro s tag index h
    have entry {status fields u} (hact : routeClear [index] (s.onHli Hli.popBuffer) = (u.onHli Hli.popBuffer, ⟨status, fields⟩)) :
        Answers (.routeClear tag [index]) ⟨0x35, tag, [index]⟩ s status fields u :=
      answers_of_entry h (act := routeClear) rfl rfl (by decide) hact
    refine ⟨fun hi => entry (routeClear_refuses hi), ?_⟩
    rintro i rfl
    exact entry (routeClear_eq i _)

end Sys2Proof.Machine
end

section
/-!
How an accepted update is copied through the routes of its source, and what the rest of the ending leaves of the slot records: the skip
counts of ABSENT slots apart, every one (R14, R53, R111, R112).
-/

namespace Sys2Proof.Machine

open Sys2Proof

variable {l : LaneId} {s t u : State} {ref q : SlotRef} {data : List Byte}

/-! ## The records that a choice passes over -/

/-- Every record is as it was, but for the entries that a choice on the lane has skipped (R14). -/
def Skips (l : LaneId) (s t : State) : Prop := ∀ q, SkippedOnly l q (s.slot q) (t.slot q)

theorem SkippedOnly.trans {old mid new : SlotRecord} (h : SkippedOnly l q old mid) (k : SkippedOnly l q mid new) :
    SkippedOnly l q old new := by
  rcases h with rfl | ⟨hl, p, n, rfl, ha, hn, rfl⟩
  · exact k
  · rcases k with rfl | ⟨-, -, m, ⟨⟩, -, hm, rfl⟩
    · exact .inr ⟨hl, p, n, rfl, ha, hn, rfl⟩
    · exact .inr ⟨hl, p, m, rfl, ha, hn.trans hm, rfl⟩

theorem SkippedOnly.eq_published {p : PublishedRec} {new : SlotRecord} (h : SkippedOnly l q (.published p) new) :
    new = .published p := by
  rcases h with h | ⟨-, r, -, h, -⟩
  · exact h
  · cases h

theorem State.slot_of_slots (h : t.slots = s.slots) (q : SlotRef) : t.slot q = s.slot q := by simp only [State.slot, h]

theorem Skips.of_slots (h : t.slots = s.slots) : Skips l s t := fun q => .inl (State.slot_of_slots h q)

theorem Skips.refl (l : LaneId) (s : State) : Skips l s s := .of_slots rfl

theorem Skips.trans (h : Skips l s t) (k : Skips l t u) : Skips l s u := fun q => (h q).trans (k q)

theorem Skips.ite {p : Prop} [Decidable p] (ht : Skips l s t) (hu : Skips l s u) : Skips l s (if p then t else u) := by
  split <;> assumption

/-- An entry of an ABSENT slot is skipped (R14). -/
theorem Skips.setSlot {k : SlotId} {r : PolledRec} (hr : s.slot ⟨l, k⟩ = .polled r) (ha : r.presence = .absent) :
    Skips l s (s.setSlot ⟨l, k⟩ (.polled { r with skipCount := r.skipCount + 1 })) := by
  intro q
  rw [State.slot_setSlot]
  split
  · rename_i hq
    subst hq
    exact .inr ⟨rfl, r, _, hr, ha, Nat.le_succ _, rfl⟩
  · exact .inl rfl

theorem Skips.beginOneShot (l : LaneId) (s : State) : Skips l s (beginOneShot l s) := by
  unfold Machine.beginOneShot
  split <;> exact .of_slots rfl

theorem Skips.considerEntries (l : LaneId) (es : List Entry) (s : State) : Skips l s (considerEntries l es s) := by
  induction es generalizing s with
  | nil => exact .refl l s
  | cons e rest ih =>
    have passes : Skips l s (Machine.considerEntries l rest (advancePosition l s)) := Skips.trans (.of_slots rfl) (ih _)
    simp only [Machine.considerEntries]
    split
    · split
      case h_1 => exact passes
      case h_2 r hr =>
        split
        · rename_i ha
          exact (Skips.trans (.of_slots rfl) (Skips.setSlot (s := advancePosition l s) hr ha.1)).trans (ih _)
        · exact .of_slots rfl
      case h_3 => exact .of_slots rfl
      case h_4 => exact .ite passes (.of_slots rfl)
    · exact passes

theorem Skips.chooseIn (l : LaneId) (rounds : Nat) (s : State) : Skips l s (chooseIn rounds l s) := by
  induction rounds generalizing s with
  | zero => exact .refl l s
  | succ n ih =>
    rw [chooseIn_succ rfl]
    have ended (u : State) : Skips l u (Machine.chooseIn n l (endRound l u)) :=
      Skips.trans (.of_slots (by rw [endRound_eq rfl]; rfl)) (ih _)
    have step (u : State) : Skips l u (chooseFrom n l (s.lane l) u) :=
      .ite (.refl l u) (.ite (.beginOneShot l u) (.ite (ended u) (.refl l u)))
    exact .ite (.beginOneShot l s) (.trans (.ite (.considerEntries l _ s) (.refl l s)) (step _))

theorem Skips.choose (l : LaneId) (s : State) : Skips l s (choose l s) := .chooseIn l 3 s

/-! ## The rest of an ending -/

theorem slots_swapStaged (l : LaneId) (s : State) : (swapStaged l s).slots = s.slots := by rw [swapStaged_eq rfl]; rfl

/-- What the condition of the lane makes of an ending changes slot records by a choice alone. -/
theorem Skips.afterEnding (l : LaneId) (t : Transaction) (o : TxOutcome) (followUp : Bool) (s : State) :
    Skips l s (afterEnding l t o followUp s) := by
  have faulted (cause : Cause) : Skips l s (enterFaulted l cause s) := .of_slots (by rw [enterFaulted_eq cause rfl]; rfl)
  refine .ite (.of_slots rfl) (.ite (faulted _) (.ite (faulted _) ?_))
  split
  · exact Skips.trans (.ite (.of_slots (slots_swapStaged l s)) (.refl l s)) (.choose l _)
  · exact .of_slots (by rw [enterHalted_eq rfl]; rfl)
  · exact .ite (.refl l s) (.of_slots rfl)
  all_goals exact .refl l s

theorem slots_captureFault (l : LaneId) (o : TxOutcome) (slot : SlotId) (cell bit : Nat) (s : State) :
    (captureFault l o slot cell bit s).slots = s.slots := by
  unfold captureFault
  split
  · split <;> rfl
  · rfl

theorem slots_completeOneShot (l : LaneId) (t : Transaction) (o : TxOutcome) (s : State) : (completeOneShot l t o s).slots = s.slots := by
  unfold completeOneShot
  split
  · rfl
  · split <;> rfl

/-- Of the stages of an ending, the third alone changes slot records (R53). -/
theorem slots_endingStages (l : LaneId) (t : Transaction) (o : TxOutcome) (cell bit : Nat) (s : State) :
    (endingStages l t o cell bit s).slots =
      (takeEnding ⟨l, t.slot⟩ o t.delivery t.pendingResult (t.followsUp o) (settleLine l o s)).slots :=
  (slots_completeOneShot ..).trans (slots_captureFault ..)

/-! ## Feeding the routes (R111, R112) -/

/-- A record that a route of a mode has fed with data (R111, R112). -/
def SlotRecord.fed (mode : RouteMode) (data : List Byte) : SlotRecord → SlotRecord
  | .published p => .published (if mode = .always ∨ p.data ≠ some data then p.put data else p)
  | r => r

theorem slot_copyRoute (data : List Byte) (s : State) (x : Route) (q : SlotRef) :
    (copyRoute data s x).slot q = if q = x.dst then (s.slot q).fed x.mode data else s.slot q := by
  by_cases hq : q = x.dst
  · subst hq
    cases hr : s.slot x.dst with
    | published p => by_cases hf : x.mode = .always ∨ p.data ≠ some data <;> simp [copyRoute, hr, hf, SlotRecord.fed]
    | undefined | polled | contended => simp [copyRoute, hr, SlotRecord.fed]
  · rw [if_neg hq]
    unfold copyRoute
    split
    · split
      · exact s.slot_setSlot_of_ne _ hq
      · rfl
    · rfl

/-- Routes that lead elsewhere leave a record alone. -/
theorem slot_copyRoutes_of_ne {routes : List Route} (h : ∀ x ∈ routes, x.dst ≠ q) (s : State) :
    (routes.foldl (copyRoute data) s).slot q = s.slot q :=
  List.foldlRecOn (motive := fun u : State => u.slot q = s.slot q) routes _ rfl fun u hu x hx => by
    rw [slot_copyRoute, if_neg (h x hx).symm, hu]

/-- Where no two routes share a destination, each destination is fed once, with the record it held. -/
theorem slot_copyRoutes_of_mem {routes : List Route} (single : routes.Pairwise fun x y => x.dst ≠ y.dst) {x : Route} (hx : x ∈ routes)
    (s : State) : (routes.foldl (copyRoute data) s).slot x.dst = (s.slot x.dst).fed x.mode data := by
  induction routes generalizing s with
  | nil => cases hx
  | cons y rest ih =>
    obtain ⟨apart, single⟩ := List.pairwise_cons.mp single
    rw [List.foldl_cons]
    rcases List.mem_cons.mp hx with rfl | hx
    · rw [slot_copyRoutes_of_ne fun y hy => (apart y hy).symm, slot_copyRoute, if_pos rfl]
    · rw [ih single hx, slot_copyRoute, if_neg (apart x hx).symm]

theorem State.pairwise_routeList (single : ∀ i j x y, s.route i = some x → s.route j = some y → x.dst = y.dst → i = j) :
    s.routeList.Pairwise fun x y => x.dst ≠ y.dst := by
  rw [State.routeList, s.toList_routes, List.filterMap_map, List.pairwise_filterMap]
  exact (List.nodup_finRange 16).imp fun hij x hx y hy hd => hij (single _ _ x y hx hy hd)

theorem slot_feedRoutes_of_ne (h : ∀ i x, s.route i = some x → x.src = ref → x.dst ≠ q) :
    (feedRoutes ref data s).slot q = s.slot q :=
  slot_copyRoutes_of_ne (fun x hx => by
    obtain ⟨held, hsrc⟩ := List.mem_filter.mp hx
    obtain ⟨i, hi⟩ := (s.mem_routeList x).mp held
    exact h i x hi (of_decide_eq_true hsrc)) s

theorem slot_feedRoutes_of_route (single : ∀ i j x y, s.route i = some x → s.route j = some y → x.dst = y.dst → i = j) {i : Fin 16}
    {x : Route} (hi : s.route i = some x) (hx : x.src = ref) :
    (feedRoutes ref data s).slot x.dst = (s.slot x.dst).fed x.mode data :=
  slot_copyRoutes_of_mem ((s.pairwise_routeList single).filter _)
    (List.mem_filter.mpr ⟨(s.mem_routeList x).mpr ⟨i, hi⟩, decide_eq_true hx⟩) s

/-! ## What the Slot Table makes of an ending -/

/-- An ending delivers an accepted update: a DONE on a slot that is called for its data (R8, R9). -/
def Accepted (s : State) (ref : SlotRef) (o : TxOutcome) : Prop :=
  o = .done ∧ ((∃ r, s.slot ref = .polled r) ∨ ∃ r, s.slot ref = .contended r)

theorem Accepted.ne_of_published {o : TxOutcome} {p : PublishedRec} (h : Accepted s ref o) (hq : s.slot q = .published p) : q ≠ ref := by
  rintro rfl
  rcases h.2 with ⟨r, hr⟩ | ⟨r, hr⟩ <;> simp [hr] at hq

theorem State.route_of_routes (h : t.routes = s.routes) (i : Fin 16) : t.route i = s.route i := by simp only [State.route, h]

/-- The records and the routes held are as they were, the record of one slot apart. -/
structure OnlyRecord (ref : SlotRef) (s t : State) : Prop where
  slot : ∀ q, q ≠ ref → t.slot q = s.slot q
  routes : t.routes = s.routes

theorem OnlyRecord.setSlot (ref : SlotRef) (s : State) (x : SlotRecord) : OnlyRecord ref s (s.setSlot ref x) :=
  ⟨fun _ hq => s.slot_setSlot_of_ne x hq, rfl⟩

theorem OnlyRecord.report (h : OnlyRecord ref s t) (r : Report) : OnlyRecord ref s (t.report r) := ⟨h.slot, h.routes⟩

theorem OnlyRecord.ite {p : Prop} [Decidable p] (ht : OnlyRecord ref s t) (hu : OnlyRecord ref s u) :
    OnlyRecord ref s (if p then t else u) := by split <;> assumption

/-- An accepted update settles the record of its slot, and then feeds the routes (R9). -/
theorem takeEnding_of_accepted {o : TxOutcome} (h : Accepted s ref o) (d : Delivery) (p : PendingResult) (followUp : Bool) :
    ∃ u, takeEnding ref o d p followUp s = feedRoutes ref d.data u ∧ OnlyRecord ref s u := by
  obtain ⟨rfl, ⟨r, hr⟩ | ⟨r, hr⟩⟩ := h
  · simp only [takeEnding, hr, endPolled, acceptPolled]
    have reported {w : State} (c : Prop) [Decidable c] (x : Report) (h : OnlyRecord ref s w) :
        OnlyRecord ref s (if c then w.report x else w) := .ite (h.report x) h
    exact ⟨_, rfl, reported _ _ (reported _ _ (.setSlot ..))⟩
  · simp only [takeEnding, hr, endContended, acceptContended]
    exact ⟨_, rfl, .ite (.report (.setSlot ..) _) (.setSlot ..)⟩

/-- Any other ending changes the record of its slot alone (R8). -/
theorem takeEnding_of_not_accepted {o : TxOutcome} (h : ¬ Accepted s ref o) (d : Delivery) (p : PendingResult) (followUp : Bool) :
    OnlyRecord ref s (takeEnding ref o d p followUp s) := by
  unfold takeEnding
  split
  case h_1 => exact ⟨fun _ _ => rfl, rfl⟩
  case h_2 r hr =>
    unfold endPolled
    split
    · exact absurd ⟨rfl, .inl ⟨r, hr⟩⟩ h
    · exact .ite (.ite (.report (.setSlot ..) _) (.setSlot ..)) (.setSlot ..)
    · exact .setSlot ..
  case h_3 r hr =>
    unfold endContended
    split
    · exact absurd ⟨rfl, .inr ⟨r, hr⟩⟩ h
    · exact .setSlot ..
  case h_4 => exact .setSlot ..

section

variable {o : TxOutcome} {d : Delivery} {p : PendingResult} {followUp : Bool}

/-- An accepted update feeds the destination of a route of its source (R111). -/
theorem slot_takeEnding_of_route (single : ∀ i j x y, s.route i = some x → s.route j = some y → x.dst = y.dst → i = j)
    (h : Accepted s ref o) {i : Fin 16} {x : Route} (hi : s.route i = some x) (hx : x.src = ref) (hd : x.dst ≠ ref) :
    (takeEnding ref o d p followUp s).slot x.dst = (s.slot x.dst).fed x.mode d.data := by
  obtain ⟨u, hu, only⟩ := takeEnding_of_accepted h d p followUp
  have routes := State.route_of_routes only.routes
  rw [hu, slot_feedRoutes_of_route (by simpa only [routes] using single) (i := i) (by rw [routes, hi]) hx, only.slot _ hd]

/-- An ending leaves a record alone that is neither that of its slot nor fed by an accepted update (R8, R111). -/
theorem slot_takeEnding_of_unfed (hq : q ≠ ref) (h : Accepted s ref o → ∀ i x, s.route i = some x → x.src = ref → x.dst ≠ q) :
    (takeEnding ref o d p followUp s).slot q = s.slot q := by
  by_cases ha : Accepted s ref o
  · obtain ⟨u, hu, only⟩ := takeEnding_of_accepted ha d p followUp
    have routes := State.route_of_routes only.routes
    rw [hu, slot_feedRoutes_of_ne (by simpa only [routes] using h ha), only.slot q hq]
  · exact (takeEnding_of_not_accepted ha d p followUp).slot q hq

end

/-- A command that ends a transaction leaves the slot records to the Slot Table and to the choice that follows. -/
theorem Ends.exec_eq_skips {c : Instr} {t : Transaction} {o : TxOutcome} {cell bit : Nat} (h : Ends s l c t o cell bit) :
    ∃ u v, exec c s = .next u ∧ v.slots = s.slots ∧ v.routes = s.routes
      ∧ ∀ q, SkippedOnly l q ((takeEnding ⟨l, t.slot⟩ o t.delivery t.pendingResult (t.followsUp o) v).slot q) (u.slot q) := by
  obtain ⟨x, hexec⟩ := h.exec_eq
  have transaction : ((s.ending l t x).lane l).transaction = some t := congrArg Lane.transaction (s.lane_setLane_self l _)
  rw [endTransaction_eq_afterEnding transaction] at hexec
  exact ⟨_, settleLine l o (s.ending l t x), hexec, rfl, rfl,
    Skips.trans (.of_slots (slots_endingStages l t o cell bit _)) (.afterEnding l t o _ _)⟩

/-- Settles O45: the Slot Table feeds the routes of an accepted update alone, and a choice skips no published slot. -/
theorem acceptedUpdatesFeedTheirRoutes : Obligations.AcceptedUpdatesFeedTheirRoutes := by
  intro s l c t o cell bit h single accepted
  obtain ⟨u, v, hexec, hslots, hroutes, skipped⟩ := h.exec_eq_skips
  have slot := State.slot_of_slots hslots
  have route := State.route_of_routes hroutes
  have taken : accepted → Accepted v ⟨l, t.slot⟩ o := by simp only [Accepted, slot, accepted, imp_self]
  refine ⟨u, hexec, fun i x p ha hi hx hp => ?_, fun q hq unfed => ?_⟩
  · have hpv : v.slot x.dst = .published p := (slot _).trans hp
    have fed := skipped x.dst
    rw [slot_takeEnding_of_route (by simpa only [route] using single) (taken ha) ((route i).trans hi) hx
      ((taken ha).ne_of_published hpv), hpv] at fed
    exact fed.eq_published
  · have same := skipped q
    rwa [slot_takeEnding_of_unfed hq (by simpa only [Accepted, slot, route] using unfed), slot] at same

end Sys2Proof.Machine
end

section
/-!
The requests LANE_START and LANE_HALT on a FAULTED lane: recovery is armed, or the lane leaves at once after the quiet (R127 to R130).
-/

namespace Sys2Proof.Machine

open Sys2Proof

variable {l : LaneId} {s : State}

theorem setResume_eq (l : LaneId) (r : Resume) (s : State) : setResume l r s = s.setLane l { s.lane l with resume := r } := rfl

theorem Lane.quietComplete_iff (L : Lane) : L.quietComplete = true ↔ 128 ≤ L.line.recessiveRun := decide_eq_true_iff

/-! ## The request for recovery -/

/-- With auto-recover on, the request sets the resume condition alone (R130; log entry 11). -/
theorem requestRecovery_autoRecover (ha : (s.lane l).config.autoRecover = true) (r : Resume) :
    requestRecovery l r s = s.setLane l { s.lane l with resume := r } := by
  simp only [requestRecovery, setResume_eq, State.lane_setLane_self, ha, if_true]

/-- With auto-recover off and the quiet still running, the request arms recovery (R128, R130). -/
theorem requestRecovery_arms (ha : (s.lane l).config.autoRecover = false) (hq : (s.lane l).line.recessiveRun < 128) (r : Resume) :
    requestRecovery l r s = s.setLane l { s.lane l with resume := r, recoveryArmed := true } := by
  have waits : ¬ 128 ≤ (s.lane l).line.recessiveRun := Nat.not_le.mpr hq
  simp only [requestRecovery, setResume_eq, State.onLane, State.lane_setLane_self, State.setLane_setLane, ha, Lane.quietComplete_iff,
    waits, Bool.false_eq_true, if_false]

/-- With auto-recover off and the quiet complete, the lane enters the condition asked for, recovery and drain owed discharged (R128 to
R130). -/
theorem requestRecovery_leaves (ha : (s.lane l).config.autoRecover = false) (hq : 128 ≤ (s.lane l).line.recessiveRun) (r : Resume) :
    let asked := setResume l r s
    requestRecovery l r s = enterResume l .recovered (asked.setLane l { asked.lane l with
      line := { (asked.lane l).line with drainOwed := false }, recoveryArmed := false }) := by
  simp only [requestRecovery, leaveFaulted, setResume_eq, State.onLane, State.lane_setLane_self, State.setLane_setLane, ha,
    Lane.quietComplete_iff, hq, Bool.false_eq_true, if_false, if_true]

/-- A FAULTED lane that leaves at once for HALTED: a staged schedule is swapped in (R83, R84, R129). -/
theorem requestRecovery_halted (hc : (s.lane l).condition = .faulted) (ha : (s.lane l).config.autoRecover = false)
    (hq : 128 ≤ (s.lane l).line.recessiveRun) :
    requestRecovery l .halted s =
      { s.setLane l { s.lane l with
          resume := .halted, recoveryArmed := false, line := { (s.lane l).line with drainOwed := false }
          schedules := (s.lane l).swapped, condition := .halted
          round := { (s.lane l).round with
            position := if (s.lane l).schedules.staged.isSome then 0 else (s.lane l).round.position } } with
        reports := (.laneChange l .faulted .halted .recovered :: (s.lane l).swapReports l).foldl ReportQueue.handOver s.reports } := by
  have resume : ((setResume l .halted s).lane l).resume = .halted := by rw [setResume_eq, State.lane_setLane_self]
  rw [requestRecovery_leaves ha hq, enterResume_halted resume]
  simp only [setResume_eq, State.lane_setLane_self, State.setLane_setLane, hc]
  rfl

/-- A FAULTED lane that leaves at once for RUNNING: the round begins again and the lane chooses (R83, R84, R129). -/
theorem requestRecovery_running (hc : (s.lane l).condition = .faulted) (ha : (s.lane l).config.autoRecover = false)
    (hq : 128 ≤ (s.lane l).line.recessiveRun) :
    requestRecovery l .running s = choose l
      { s.setLane l { s.lane l with
          resume := .running, recoveryArmed := false, line := { (s.lane l).line with drainOwed := false }
          schedules := (s.lane l).swapped, condition := .running, round := (s.lane l).round.abandoned } with
        reports := (.laneChange l .faulted .running .recovered :: (s.lane l).swapReports l).foldl ReportQueue.handOver s.reports } := by
  have resume : ((setResume l .running s).lane l).resume = .running := by rw [setResume_eq, State.lane_setLane_self]
  rw [requestRecovery_leaves ha hq, enterResume_running resume]
  simp only [setResume_eq, State.lane_setLane_self, State.setLane_setLane, hc]
  rfl

/-! ## LANE_START and LANE_HALT in FAULTED -/

theorem startLane_faulted (hc : (s.lane l).condition = .faulted) : startLane l s = accept [] (requestRecovery l .running s) := by
  simp only [startLane, hc]

theorem haltLane_faulted (hc : (s.lane l).condition = .faulted) : haltLane l s = accept [] (requestRecovery l .halted s) := by
  simp only [haltLane, hc]

/-- Settles O19: both requests ask for recovery, and auto-recover and the quiet decide what becomes of the lane. -/
theorem recoveryIsArmedByRequest : Obligations.RecoveryIsArmedByRequest := by
  intro s tag l c f resume request h hc L left
  let popped := s.onHli Hli.popBuffer
  have entry {u} (hk : requestRecovery l resume popped = u.onHli Hli.popBuffer) : Answers c f s .ok [] u := by
    rcases request with ⟨rfl, rfl, rfl⟩ | ⟨rfl, rfl, rfl⟩
    · exact answers_of_laneAlone h rfl rfl (by decide) ((startLane_faulted (s := popped) hc).trans (congrArg (accept []) hk))
    · exact answers_of_laneAlone h rfl rfl (by decide) ((haltLane_faulted (s := popped) hc).trans (congrArg (accept []) hk))
  refine ⟨fun ha => entry (requestRecovery_autoRecover (s := popped) ha _),
    fun ha hq => entry (requestRecovery_arms (s := popped) ha hq _), fun ha hq hr => entry ?_, fun ha hq hr => entry ?_⟩
  · subst hr
    exact requestRecovery_halted (s := popped) hc ha hq
  · subst hr
    rw [← choose_onHli]
    exact requestRecovery_running (s := popped) hc ha hq

end Sys2Proof.Machine
end

section
/-!
The Report Queue as statements: where a report handed over goes, how reports are numbered as they are sent, and what LINK_RESET returns to
pending (R137, R138, R140, R142, R143, R146, R147, R166, R174).
-/

namespace Sys2Proof.Machine

open Sys2Proof

variable {ref : SlotRef} {u : Update} {r : Report} {before after kept records rest : List Report}

/-! ## Merging into a list of records -/

/-- A merge passes over a record that is no SLOT_UPDATE of the slot. -/
theorem mergeUpdate_cons_of_ne (h : ref ∉ updateRefs [r]) : mergeUpdate ref u (r :: rest) = (mergeUpdate ref u rest).map (r :: ·) := by
  cases r with
  | slotUpdate ref' old => exact if_neg (by simpa [eq_comm] using h)
  | _ => rfl

/-- A merge finds the first SLOT_UPDATE of the slot. -/
theorem mergeUpdate_of_first {old : Update} (h : ref ∉ updateRefs before) :
    mergeUpdate ref u (before ++ .slotUpdate ref old :: after) =
      some (before ++ .slotUpdate ref { u with merged := min (old.merged + u.merged + 1) 255 } :: after) := by
  induction before with
  | nil => exact if_pos rfl
  | cons r before ih =>
    rw [← List.singleton_append, updateRefs_append, List.mem_append, not_or] at h
    rw [List.cons_append, mergeUpdate_cons_of_ne h.1, ih h.2]
    rfl

theorem mem_updateRefs_singleton : ref ∈ updateRefs [r] ↔ ∃ u, r = .slotUpdate ref u := by
  cases r <;> simp [updateRefs, eq_comm]

/-- Only a SLOT_UPDATE of a slot that has one merges. -/
theorem mergeInto_eq_none_iff : r.mergeInto records = none ↔ ∀ ref ∈ updateRefs [r], ref ∉ updateRefs records := by
  cases r with
  | slotUpdate ref u =>
    rw [updateRefs_slotUpdate, updateRefs_nil, List.forall_mem_singleton]
    exact ⟨not_mem_updateRefs_of_mergeUpdate, mergeUpdate_eq_none⟩
  | _ => exact ⟨fun _ => nofun, fun _ => rfl⟩

/-- Settles O54: a SLOT_UPDATE of a slot that has one finds the first, and anything else has no record to merge into. -/
theorem reportsMergeAppendOrDrop : Obligations.ReportsMergeAppendOrDrop := by
  intro q
  refine ⟨fun ref u old before after hq hb => ?_, fun r h => ?_⟩
  · have merged := mergeUpdate_of_first (u := u) (old := old) (after := after) hb
    rw [← hq] at merged
    simp only [ReportQueue.handOver, Report.mergeInto, merged]
  · have unmerged : r.mergeInto q.unsent = none := mergeInto_eq_none_iff.mpr fun ref hr => by
      obtain ⟨u, rfl⟩ := mem_updateRefs_singleton.mp hr
      exact h ref u rfl
    have appended : q.handOver r = q.append r := by rw [ReportQueue.handOver, unmerged]
    exact ⟨fun hs => appended.trans (if_pos hs), fun hs => appended.trans (if_neg (Nat.not_lt.mpr hs))⟩

/-! ## Sending -/

/-- Settles O7: the arbiter comes to the reports, and the credit decides. -/
theorem reportsAreNumberedAsTheyAreSent : Obligations.ReportsAreNumberedAsTheyAreSent := by
  intro s r rest idle noNotice noReply oldest
  have chosen : exec .sendReport s =
      if s.hli.credit = 0 then .refused .notChosenByArbiter
      else .next { s with
        reports := { s.reports with
          inFlight := s.reports.inFlight ++ [{ seq := s.hli.nextReportSeq, report := r }], unsent := rest }
        hli := { s.hli with
          credit := s.hli.credit - 1
          nextReportSeq := nextNumber s.hli.nextReportSeq
          transmitting := some (.report { seq := s.hli.nextReportSeq, report := r }) } } := by
    change execSendReport s = _
    simp only [execSendReport, whenIdle, idle, noNotice, noReply, oldest]
  exact ⟨fun credit => chosen.trans (if_neg credit.ne'), fun spent => chosen.trans (if_pos spent)⟩

/-! ## The re-merge, by what each record leaves (R147) -/

/-- The contents of the SLOT_UPDATE records of a slot. -/
def updatesOf (ref : SlotRef) (records : List Report) : List Update :=
  records.filterMap fun r => match r with
    | .slotUpdate ref' u => if ref' = ref then some u else none
    | _ => none

/-- A SLOT_UPDATE with all the later ones of its slot merged into it: the newest contents, with all the merged counts and one for each
merge. -/
def Update.absorb (u : Update) (later : List Update) : Update :=
  match later.getLast? with
  | none => u
  | some newest => { newest with merged := min (u.merged + (later.map fun x => x.merged + 1).sum) 255 }

/-- A record with the later SLOT_UPDATE records of its slot merged into it. -/
def Report.absorb (later : List Report) : Report → Report
  | .slotUpdate ref u => .slotUpdate ref (u.absorb (updatesOf ref later))
  | r => r

/-- What a record leaves in the re-merge of a list that it stands in. -/
def Report.survivor (before : List Report) (r : Report) (after : List Report) : Option Report :=
  if ∃ ref ∈ updateRefs [r], ref ∈ updateRefs before then none else some (r.absorb after)

/-- What the records of a list leave in the re-merge, in a list that has others before them. -/
def survivors (before records : List Report) : List Report :=
  (List.range records.length).filterMap fun i =>
    records[i]?.bind fun r => r.survivor (before ++ records.take i) (records.drop (i + 1))

theorem survivor_slotUpdate (before : List Report) (ref : SlotRef) (u : Update) (after : List Report) :
    (Report.slotUpdate ref u).survivor before after =
      if ref ∈ updateRefs before then none else some (.slotUpdate ref (u.absorb (updatesOf ref after))) := by
  simp [Report.survivor, Report.absorb]

theorem remerged_eq_survivors (records : List Report) : remerged records = survivors [] records := by
  refine congrArg (List.filterMap · _) (funext fun i => ?_)
  cases records[i]? with
  | none => rfl
  | some r =>
    cases r with
    | slotUpdate ref u =>
      have merged (later : List Update) : some (Report.slotUpdate ref (u.absorb later)) =
          match later.getLast? with
          | none => some (.slotUpdate ref u)
          | some newest => some (.slotUpdate ref { newest with merged := min (u.merged + (later.map fun x => x.merged + 1).sum) 255 }) := by
        unfold Update.absorb
        cases later.getLast? <;> rfl
      rw [Option.bind_some, survivor_slotUpdate, merged]
      rfl
    | _ => rfl

theorem survivors_cons (before : List Report) (r : Report) (rest : List Report) :
    survivors before (r :: rest) = (r.survivor before rest).toList ++ survivors (before ++ [r]) rest := by
  simp only [survivors, List.length_cons, List.range_succ_eq_map, List.filterMap_cons, List.filterMap_map]
  cases hr : r.survivor before rest <;> simp [hr, Function.comp_def]

theorem updatesOf_cons_of_ne (h : ref ∉ updateRefs [r]) : updatesOf ref (r :: rest) = updatesOf ref rest := by
  cases r with
  | slotUpdate ref' u =>
    have hne : ref' ≠ ref := by simpa [eq_comm] using h
    simp [updatesOf, hne]
  | _ => rfl

theorem updatesOf_cons_self : updatesOf ref (.slotUpdate ref u :: rest) = u :: updatesOf ref rest := by
  simp [updatesOf]

theorem Update.absorb_cons (old u : Update) (later : List Update) :
    old.absorb (u :: later) = Update.absorb { u with merged := min (old.merged + u.merged + 1) 255 } later := by
  cases hl : later.getLast? with
  | none => simp [Update.absorb, List.getLast?_eq_none_iff.mp hl, Nat.add_assoc]
  | some newest =>
    have sum : min (old.merged + (u.merged + 1 + (later.map fun x => x.merged + 1).sum)) 255
        = min (min (old.merged + u.merged + 1) 255 + (later.map fun x => x.merged + 1).sum) 255 := by omega
    simp only [Update.absorb, List.getLast?_cons, hl, Option.getD_some, List.map_cons, List.sum_cons, sum]

theorem Report.absorb_nil (r : Report) : r.absorb [] = r := by
  cases r <;> rfl

/-- A SLOT_UPDATE merges into no record of another slot. -/
theorem map_absorb_cons (h : ∀ ref ∈ updateRefs [r], ref ∉ updateRefs records) (rest : List Report) :
    records.map (Report.absorb (r :: rest)) = records.map (Report.absorb rest) := by
  refine List.map_congr_left fun x hx => ?_
  cases x with
  | slotUpdate ref u =>
    have held : ref ∈ updateRefs records := List.mem_filterMap.mpr ⟨_, hx, rfl⟩
    rw [Report.absorb, updatesOf_cons_of_ne fun hr => h ref hr held, Report.absorb]
  | _ => rfl

/-- A merge keeps the slots of a list, and is into a slot of them. -/
theorem updateRefs_of_mergeUpdate (h : mergeUpdate ref u kept = some records) :
    updateRefs records = updateRefs kept ∧ ref ∈ updateRefs kept := by
  obtain ⟨front, old, back, rfl, -, rfl⟩ := mergeUpdate_eq_some h
  simp

/-- Where each slot has one SLOT_UPDATE, a merge is the first step of merging a list into the records. -/
theorem map_absorb_of_mergeUpdate (distinct : (updateRefs kept).Nodup) (h : mergeUpdate ref u kept = some records) :
    kept.map (Report.absorb (.slotUpdate ref u :: rest)) = records.map (Report.absorb rest) := by
  obtain ⟨front, old, back, rfl, hfront, rfl⟩ := mergeUpdate_eq_some h
  rw [updateRefs_append, updateRefs_slotUpdate] at distinct
  have hback : ref ∉ updateRefs back := (List.nodup_cons.mp (List.nodup_append.mp distinct).2.1).1
  have others (xs : List Report) (hx : ref ∉ updateRefs xs) :
      xs.map (Report.absorb (.slotUpdate ref u :: rest)) = xs.map (Report.absorb rest) := map_absorb_cons (by simpa using hx) rest
  simp only [List.map_append, List.map_cons, others _ hfront, others _ hback, Report.absorb, updatesOf_cons_self, Update.absorb_cons]

/-- The re-merge from the records kept so far: later records are merged into them, and leave behind them what they leave. -/
theorem foldl_mergeInto (distinct : (updateRefs kept).Nodup) (same : ∀ ref, ref ∈ updateRefs kept ↔ ref ∈ updateRefs before) :
    rest.foldl (fun kept r => (r.mergeInto kept).getD (kept ++ [r])) kept = kept.map (Report.absorb rest) ++ survivors before rest := by
  induction rest generalizing kept before with
  | nil => simp [survivors, funext Report.absorb_nil]
  | cons r rest ih =>
    rw [List.foldl_cons, survivors_cons]
    cases hm : r.mergeInto kept with
    | some merged =>
      cases r with
      | slotUpdate ref u =>
        obtain ⟨refs, held⟩ := updateRefs_of_mergeUpdate hm
        rw [Option.getD_some, survivor_slotUpdate, if_pos ((same ref).mp held), map_absorb_of_mergeUpdate distinct hm]
        refine ih (refs ▸ distinct) fun q => ?_
        rw [refs, updateRefs_append, List.mem_append, ← same q]
        exact ⟨.inl, fun hq => hq.elim id fun hq => List.mem_singleton.mp hq ▸ held⟩
      | _ => cases hm
    | none =>
      have fresh := mergeInto_eq_none_iff.mp hm
      have survives : r.survivor before rest = some (r.absorb rest) :=
        if_neg fun ⟨ref, hr, held⟩ => fresh ref hr ((same ref).mpr held)
      have single : (updateRefs [r]).Nodup := by cases r <;> simp [updateRefs]
      rw [Option.getD_none, survives, map_absorb_cons fresh, ih (before := before ++ [r])]
      · simp
      · rw [updateRefs_append]
        exact List.nodup_append.mpr ⟨distinct, single, fun a ha b hb e => fresh b hb (e ▸ ha)⟩
      · simp [same]

/-- The re-merge made record by record is the one that R147 describes. -/
theorem remerge_eq_remerged (records : List Report) : remerge records = remerged records :=
  (foldl_mergeInto (kept := []) (before := []) List.nodup_nil fun _ => Iff.rfl).trans (remerged_eq_survivors records).symm

/-! ## LINK_RESET -/

theorem ReportQueue.linkReset_eq (q : ReportQueue) :
    let returned := q.inFlight.map SentReport.report ++ q.unsent
    let merged := remerged returned
    let lost := merged.length < returned.length ∧ q.lostCount ≠ 0
    q.linkReset =
      { inFlight := []
        unsent := if lost then merged ++ [.reportsLost q.lostCount q.lostKinds] else merged
        lostCount := if lost then 0 else q.lostCount
        lostKinds := if lost then 0 else q.lostKinds } := by
  simp only [ReportQueue.linkReset, remerge_eq_remerged, ReportQueue.reportLoss]
  split
  · rename_i freed
    by_cases zero : q.lostCount = 0
    · simp only [zero, ne_eq, not_true_eq_false, and_false, if_true, if_false]
    · simp only [freed, zero, ne_eq, not_false_eq_true, and_self, if_true, if_false]
  · rename_i full
    simp only [full, false_and, if_false]

/-- An accepted LINK_RESET makes no cache entry (R160). -/
theorem Hli.remember_linkReset {f : Frame} {r : Reply} (hf : f.kind = 0x03) (hr : r.status = .ok) (h : Hli) : h.remember f r = h :=
  if_pos (.inr ⟨hf, hr⟩)

/-- What LINK_RESET does to the part, by the reset of the Report Queue (R166, R174). -/
theorem exec_linkReset {s : State} {tag : Byte} (h : Takes s ⟨0x03, tag, []⟩) : exec (.linkReset tag []) s = .next { s with
    reports := s.reports.linkReset
    hli := { s.hli with
      buffer := s.hli.buffer.tail
      replies := s.hli.replies ++ [{ tag, code := 0x03, status := .ok, fields := [byte s.reports.linkReset.unsent.length] }]
      cache := [], credit := 0, nextReportSeq := 1 } } := by
  have accepted (u : State) : checkLength 0x03 linkReset [] u = linkReset [] u := if_pos rfl
  refine (handle_of_takes (checkLength 0x03 linkReset) h).trans ?_
  simp only [carryOut, accepted, linkReset, accept, Hli.remember_linkReset]
  rfl

/-- Settles O14: the frame is taken and answered without a cache entry, and the reset of the Report Queue re-merges what it returns. -/
theorem linkResetReturnsWhatIsInFlight : Obligations.LinkResetReturnsWhatIsInFlight := by
  intro s tag h returned merged lost unsent
  rw [exec_linkReset h, s.reports.linkReset_eq]

end Sys2Proof.Machine
end

section
/-!
The frames of the host link: their layout, their bytes and bits, and how they are read back (R152, R159, R164, R196); and what the receiver
makes of a start byte, of a faulty frame and of a good one (R153 to R155, R170).
-/

namespace Sys2Proof.Machine

open Sys2Proof

variable {s : State}

/-! ## The CRC-16 and the bytes of a frame -/

/-- The CRC-16 takes the bits of all the bytes one after the other (R152). -/
theorem crc16_eq_foldl_bits (bytes : List Byte) : crc16 bytes
    = (bytes.flatMap fun b => (List.range 8).map fun i => b.getLsbD (7 - i)).foldl
        (fun (crc : BitVec 16) bit => if crc.msb = bit then crc <<< 1 else (crc <<< 1) ^^^ 0x1021#16) 0xFFFF#16 := by
  rw [List.foldl_flatMap, crc16]
  exact congrArg (fun step => bytes.foldl step 0xFFFF#16) (funext fun c => funext fun b => crc16Byte_eq c b)

/-- The two bytes of a CRC-16 are its halves, the high one first (R152). -/
theorem crcBytes_eq_halves (crc : BitVec 16) : crcBytes crc = [crc.extractLsb' 8 8, crc.extractLsb' 0 8] := by
  have high : byte (crc.toNat / 256) = crc.extractLsb' 8 8 := by
    simp [byte, ← BitVec.toNat_inj, Nat.shiftRight_eq_div_pow]
  have low : byte crc.toNat = crc.extractLsb' 0 8 := by
    simp [byte, ← BitVec.toNat_inj]
  rw [crcBytes, high, low]

/-- The ten levels of a byte on the line (R152). -/
theorem byteBits_eq : ∀ b : Byte, byteBits b = false :: (List.range 8).map b.getLsbD ++ [true] := by decide +kernel

/-- Bytes with high stop bits are read as they are (R153). -/
theorem readBytes_of_high (bytes : List Byte) : readBytes (bytes.map fun b => 1#1 ++ b) = some bytes := by
  induction bytes with
  | nil => rfl
  | cons b rest ih => simp only [List.map_cons, readBytes, (linkByte_stop b).1, ih]

/-! ## Reading a frame back -/

/-- The bytes of a whole frame are cut behind what its length byte announces (R152). -/
theorem splitFrame_of_content {content crc : List Byte} (least : 2 ≤ content.length) (greatest : content.length ≤ 66)
    (two : crc.length = 2) :
    splitFrame (byte content.length :: content ++ crc) = some (byte content.length :: content, crc) := by
  have announced : (byte content.length).toNat = content.length := byte_toNat_of_lt (by omega)
  simp only [List.cons_append, splitFrame, lengthByteOk, announced]
  simp [least, greatest, two]

/-- A whole frame is read as what it holds where its CRC-16 matches (R154, R155). -/
theorem parseFrame_of_content {kind tag : Byte} {body crc : List Byte} (fits : body.length ≤ 64) (two : crc.length = 2) :
    parseFrame (byte (body.length + 2) :: kind :: tag :: body ++ crc) =
      if crc = crcBytes (crc16 (byte (body.length + 2) :: kind :: tag :: body)) then some ⟨kind, tag, body⟩ else none := by
  have split := splitFrame_of_content (content := kind :: tag :: body) (Nat.le_add_left ..) (Nat.add_le_add_right fits 2) two
  rw [parseFrame]
  exact split ▸ rfl

/-- A frame behind its start byte: what the CRC covers, and the CRC (R152). -/
theorem frameTail_eq (f : Frame) : f.tail =
    byte (f.body.length + 2) :: f.kind :: f.tag :: f.body
      ++ crcBytes (crc16 (byte (f.body.length + 2) :: f.kind :: f.tag :: f.body)) := rfl

theorem parseFrame_tail {f : Frame} (fits : f.body.length ≤ 64) : parseFrame f.tail = some f := by
  rw [frameTail_eq, parseFrame_of_content fits rfl, if_pos rfl]

theorem crcFails_tail {f : Frame} (fits : f.body.length ≤ 64) : crcFails f.tail = false := by
  rw [crcFails, parseFrame_tail fits, Option.isNone_some, Bool.and_false]

/-- A whole frame whose CRC-16 does not match (R154). -/
theorem crcFails_of_mismatch {content crc : List Byte} (least : 2 ≤ content.length) (greatest : content.length ≤ 66)
    (two : crc.length = 2) (wrong : crc ≠ crcBytes (crc16 (byte content.length :: content))) :
    crcFails (byte content.length :: content ++ crc) = true := by
  match content, least, greatest, wrong with
  | kind :: tag :: body, least, greatest, wrong =>
    have unread : parseFrame (byte (kind :: tag :: body).length :: kind :: tag :: body ++ crc) = none :=
      (parseFrame_of_content (Nat.le_of_add_le_add_right (b := 2) greatest) two).trans (if_neg wrong)
    rw [crcFails, splitFrame_of_content least greatest two, unread]
    rfl

theorem frameBits_eq (f : Frame) :
    f.bits = (0xC3 :: f.tail).flatMap fun b => false :: (List.range 8).map b.getLsbD ++ [true] :=
  congrArg (List.flatMap · _) (funext byteBits_eq)

/-! ## The fields of the reports -/

theorem tagField_eq (tag : Option (BitVec 5)) :
    tagField tag = match tag with
      | none => 0
      | some n => byte n.toNat := by
  cases tag with
  | none => rfl
  | some n => simp [tagField, byte]

/-- The attention and backlog flags share a byte (R196). -/
theorem flags_eq (attention backlog : Bool) : (flag attention ||| (flag backlog <<< 1)) =
    byte ((if attention then 1 else 0) + if backlog then 2 else 0) := by
  cases attention <;> cases backlog <;> rfl

/-- Settles O55: the frame is read back from what its length byte and its CRC-16 announce, and each layout from its definition. -/
theorem framesAreReadBack : Obligations.FramesAreReadBack := by
  refine ⟨crc16_eq_foldl_bits, crcBytes_eq_halves,
    fun f fits => ⟨parseFrame_tail fits, crcFails_tail fits, frameTail_eq f, readBytes_of_high f.tail, frameBits_eq f⟩,
    fun cause => by cases cause <;> rfl, fun _ => rfl, rfl, rfl, fun _ => rfl, rfl, rfl, rfl, rfl, rfl, rfl,
    fun _ => ⟨rfl, rfl, rfl, rfl⟩, fun seq => ?_⟩
  intro sends tagByte
  have htag : tagField = tagByte := funext tagField_eq
  refine ⟨fun ref u => ?_, fun ref p => by cases p <;> rfl, fun _ _ _ _ => rfl, fun _ _ => rfl, fun l handle outcome tag data => ?_,
    fun _ _ => rfl, fun begins => rfl, fun _ _ => rfl⟩
  · rw [← htag, ← flags_eq]
    rfl
  · rw [← htag]
    cases data <;> rfl

/-! ## Reception -/

/-- The start byte is the byte 0xC3 with a high stop bit (R152, R153). -/
theorem linkByte_eq_start : ∀ levels : LinkLevels, linkByte levels = some 0xC3 ↔ levels = 1#1 ++ 0xC3#8 := by decide

/-- A frame in reception ends, and the receiver hunts (R153). -/
theorem insideFrame_eq {k : State → Host.Outcome State Fault Refusal} (h : s.hli.receiver = .insideFrame) :
    insideFrame s k = k (s.onHli fun h => { h with receiver := .hunting }) := by
  rw [insideFrame, h]

theorem lengthByteOk_eq_false {b : Byte} (h : b.toNat < 2 ∨ 66 < b.toNat) : lengthByteOk b = false := by
  simp only [lengthByteOk, Bool.and_eq_false_iff, decide_eq_false_iff_not]
  omega

/-- Settles O3: a hunting receiver looks for the start byte alone, and each fault of a frame in reception is counted once. -/
theorem faultyFramesAreDiscardedAndCounted : Obligations.FaultyFramesAreDiscardedAndCounted := by
  refine fun s => ⟨fun hunting levels => ?_, fun inside => ?_⟩
  · have taken : exec (.frameStartByte levels) s =
        if linkByte levels = some 0xC3 then .next (s.onHli fun h => { h with receiver := .insideFrame }) else .next s := by
      change execFrameStartByte s levels = _
      rw [execFrameStartByte, hunting]
    exact ⟨fun start => taken.trans (if_pos ((linkByte_eq_start levels).mpr start)),
      fun other => taken.trans (if_neg fun start => other ((linkByte_eq_start levels).mp start))⟩
  · refine ⟨fun b outside => ?_, fun isLength b => ?_, ?_, fun content high low least greatest wrong => ?_⟩
    · change execFrameDiscard _ s = _
      rw [execFrameDiscard, insideFrame_eq inside]
      simp only [(linkByte_stop b).1, lengthByteOk_eq_false outside, Bool.not_true, Bool.or_self, Bool.false_eq_true, if_false]
      split <;> rfl
    · change execFrameDiscard _ s = _
      rw [execFrameDiscard, insideFrame_eq inside]
      simp only [(linkByte_stop b).2]
      rfl
    · exact insideFrame_eq (k := fun s => .next (s.onHli countFraming)) inside
    · have mismatch : crcFails (byte content.length :: content ++ [high, low]) = true :=
        crcFails_of_mismatch least greatest rfl wrong
      change execCrcMismatch _ s = _
      rw [execCrcMismatch, insideFrame_eq inside, readBytes_of_high, Option.any_some, if_pos mismatch]
      rfl

/-- The silence guard of a good frame: HOST_SILENT ends, with its report where it lasted, and the timer restarts (R155, R170). -/
theorem guardTakesFrame_eq (s : State) : guardTakesFrame s = { s with
    reports := if s.hli.hostSilent then s.reports.handOver (.hostSilence false) else s.reports
    hli := { s.hli with
      hostSilent := false, silenceTimer := if s.hli.silenceLimit = 0 then .stopped else .running 0 } } := by
  have timer (limit : Byte) : restartedTimer limit false = if limit = 0 then .stopped else .running 0 := by
    by_cases zero : limit = 0 <;> simp [restartedTimer, zero]
  cases silent : s.hli.hostSilent <;> simp [guardTakesFrame, silent, timer, State.onHli, State.report]

theorem Hli.receive_eq (h : Hli) (f : Frame) : h.receive f = { h with
    buffer := if h.buffer.length < 2 then h.buffer ++ [f] else h.buffer
    counts := if h.buffer.length < 2 then h.counts else { h.counts with overrun := min (h.counts.overrun + 1) 65535 } } := by
  unfold Hli.receive
  split <;> rfl

/-- Settles O4: the silence guard takes the frame, and then the receive buffer. -/
theorem goodFrameJoinsTheBufferOrOverruns : Obligations.GoodFrameJoinsTheBufferOrOverruns := by
  intro s f fits inside
  have read : (readBytes (f.tail.map fun b => 1#1 ++ b)).bind parseFrame = some f := by
    rw [readBytes_of_high, Option.bind_some, parseFrame_tail fits]
  change execGoodFrame _ s = _
  rw [execGoodFrame, insideFrame_eq inside]
  simp only [read, guardTakesFrame_eq, Hli.receive_eq, State.onHli]

end Sys2Proof.Machine
end

section
/-!
The transmitter and the resets: what the arbiter sends first, and what the end of a frame does (R159, R162, R164, R165, R173); and the
requests about the link counts and the silence limit (R167, R168, R175, R176).
-/

namespace Sys2Proof.Machine

open Sys2Proof

variable {s : State}

/-! ## The arbiter -/

/-- Settles O6: READY is looked at before the replies, and the replies before the reports. -/
theorem readyAndRepliesAreSentFirst : Obligations.ReadyAndRepliesAreSentFirst := by
  intro s idle
  refine ⟨fun cause notice => ⟨?_, ?_, ?_⟩, fun r rest noNotice oldest => ⟨?_, ?_⟩⟩
  · change execSendReady s = _
    simp only [execSendReady, whenIdle, idle, notice, State.onHli]
  · change execSendReply s = _
    simp only [execSendReply, whenIdle, idle, notice]
  · change execSendReport s = _
    simp only [execSendReport, whenIdle, idle, notice]
  · change execSendReply s = _
    simp only [execSendReply, whenIdle, idle, noNotice, oldest, State.onHli]
  · change execSendReport s = _
    simp only [execSendReport, whenIdle, idle, noNotice, oldest]

/-! ## The state after a reset -/

theorem State.slot_afterReset (rate : HostRate) (cause : ResetCause) (pending : List Instr) (r : SlotRef) :
    (State.afterReset rate cause pending).slot r = resetSlots[r.slot.val] := by
  simp [State.afterReset, State.slot]

theorem resetSlots_of_ne {k : SlotId} (h : k ≠ 0) : resetSlots[k.val] = .undefined := by
  have below : 0 ≠ k.val := fun e => h (Fin.ext e.symm)
  simp [resetSlots, below]

/-- A reset brings every block to its reset values (R7, R115, R134, R150, R164). -/
theorem afterReset_afterReset (rate : HostRate) (cause : ResetCause) (pending : List Instr) :
    AfterReset (State.afterReset rate cause pending) cause rate where
  sleepSlots l := State.slot_afterReset ..
  slots r h := (State.slot_afterReset ..).trans (resetSlots_of_ne h)
  conditions l := by rw [State.lane_afterReset]; exact ⟨rfl, rfl, rfl⟩
  config l := by rw [State.lane_afterReset]; rfl
  line l := by rw [State.lane_afterReset]; rfl
  transactions l := by rw [State.lane_afterReset]; exact ⟨rfl, rfl⟩
  accounts l := by rw [State.lane_afterReset]; exact ⟨rfl, rfl, rfl, rfl⟩
  round l := by rw [State.lane_afterReset]; rfl
  schedules l := by rw [State.lane_afterReset]; rfl
  routes i := by simp [State.afterReset, State.route]
  handles := rfl
  reports := rfl
  receiver := ⟨rfl, rfl⟩
  handler := ⟨rfl, rfl, rfl⟩
  transmitter := ⟨rfl, rfl, rfl⟩
  linkCounts := rfl
  guard := ⟨rfl, rfl, rfl⟩
  credit := ⟨rfl, rfl⟩

/-! ## The end of a frame -/

/-- The end of the reply OK of a pending SOFT_RESET resets the part (R165). -/
theorem execFrameEnd_of_reset {f : OutFrame} (sent : s.hli.transmitting = some f) (ends : s.hli.endsSoftReset f = true) :
    execFrameEnd s = .next s.softResetEffect := by
  rw [execFrameEnd, sent]
  exact if_pos ends

/-- The end of any other reply or of a report frees the transmitter (R162). -/
theorem execFrameEnd_of_other {f : OutFrame} (sent : s.hli.transmitting = some f) (goesOn : s.hli.endsSoftReset f = false)
    (noNotice : ∀ cause, f ≠ .ready cause) : execFrameEnd s = .next (s.onHli fun h => { h with transmitting := none }) := by
  rw [execFrameEnd, sent]
  cases f with
  | ready cause => exact absurd rfl (noNotice cause)
  | reply r => exact if_neg (by rw [goesOn]; nofun)
  | report r => rfl

theorem Hli.endsSoftReset_reply (h : Hli) (r : Reply) :
    h.endsSoftReset (.reply r) = true ↔ h.handlerStopped = true ∧ r.code = 0x02 ∧ r.status = .ok := by
  simp only [Hli.endsSoftReset, Bool.and_eq_true, beq_iff_eq, and_assoc]

/-- Settles O8: the request stops the handler alone, and the end of its reply is told from that of every other frame. -/
theorem softResetTakesEffectAtItsReply : Obligations.SoftResetTakesEffectAtItsReply := by
  refine ⟨fun s tag h => answers_of_entry h (act := softReset) rfl rfl (by decide) rfl, fun s f sent => ⟨?_, ?_, ?_, ?_⟩⟩
  · rintro cause rfl
    change execFrameEnd s = _
    rw [execFrameEnd, sent]
    rfl
  · rintro r rfl
    exact execFrameEnd_of_other sent rfl nofun
  · rintro r rfl other
    have goesOn : s.hli.endsSoftReset (.reply r) = false := by
      rw [← Bool.not_eq_true, Hli.endsSoftReset_reply]
      rintro ⟨stopped, code, status⟩
      rcases other with h | h | h
      · exact Bool.false_ne_true (h.symm.trans stopped)
      · exact h code
      · exact h status
    exact execFrameEnd_of_other sent goesOn nofun
  · rintro r rfl stopped code status
    have ends := (s.hli.endsSoftReset_reply r).mpr ⟨stopped, code, status⟩
    exact ⟨_, execFrameEnd_of_reset sent ends, afterReset_afterReset .., rfl⟩

/-! ## READ_LINK_STATUS and SET_SILENCE_LIMIT -/

theorem readLinkStatus_of_flag {option : Byte} {clear : Bool} (h : flagOf option = some clear) :
    readLinkStatus [option] s = accept (linkFields s.hli)
      (if clear then s.onHli fun h => { h with counts := { framing := 0, crc := 0, overrun := 0, duplicate := 0 } } else s) := by
  simp only [readLinkStatus, h]

theorem readLinkStatus_refuses {option : Byte} (h : 2 ≤ option.toNat) : readLinkStatus [option] s = refuse .badValue s := by
  simp only [readLinkStatus, flagOf_of_le h]

theorem restartedTimer_eq (limit : Byte) (hostSilent : Bool) :
    restartedTimer limit hostSilent = if limit = 0 ∨ hostSilent = true then .stopped else .running 0 := by
  by_cases zero : limit = 0 <;> cases hostSilent <;> simp [restartedTimer, zero]

/-- Settles O15: the fields are read before the counts are cleared, and the limit decides with HOST_SILENT whether the timer runs. -/
theorem linkStatusAndSilenceLimit : Obligations.LinkStatusAndSilenceLimit := by
  intro s tag value c fields
  refine ⟨fun h => ?_, fun h => answers_of_entry h (act := setSilenceLimit) rfl rfl (by decide) ?_⟩
  · have entry {status fields u}
        (hact : readLinkStatus [value] (s.onHli Hli.popBuffer) = (u.onHli Hli.popBuffer, ⟨status, fields⟩)) :
        Answers (.readLinkStatus tag [value]) ⟨0x04, tag, [value]⟩ s status fields u :=
      answers_of_entry h rfl rfl (by decide) hact
    refine ⟨?_, ?_, fun h => entry (readLinkStatus_refuses h)⟩
    · rintro rfl
      exact entry (readLinkStatus_of_flag (clear := false) rfl)
    · rintro rfl
      exact entry (readLinkStatus_of_flag (clear := true) rfl)
  · simp only [setSilenceLimit, restartedTimer_eq]
    rfl

end Sys2Proof.Machine
end

section
/-!
The request handler: the entry that each request row carries out, the first checks in the order of R157 and R171, and the duplicates (R157,
R161, R171).
-/

namespace Sys2Proof.Machine

open Sys2Proof

variable {s : State} {c : Instr} {f : Frame}

/-! ## The entries of the catalogue -/

/-- What the entry of a request row of the catalogue does with a body of the length that R171 gives. For any other row this says
nothing. -/
def catalogueEntry : Instr → List Byte → State → State × Answer
  | .hello _ _ => hello
  | .softReset _ _ => softReset
  | .linkReset _ _ => linkReset
  | .readLinkStatus _ _ => readLinkStatus
  | .setSilenceLimit _ _ => setSilenceLimit
  | .configLane _ _ => configLane
  | .laneStart _ _ => laneAlone startLane
  | .laneHalt _ _ => laneAlone haltLane
  | .laneSleep _ _ => laneAlone sleepLane
  | .laneWake _ _ => laneAlone wakeLane
  | .readLaneStatus _ _ => readLaneStatus
  | .clearCapture _ _ => laneAlone clearCapture
  | .defineSlot _ _ => defineSlot
  | .clearSlot _ _ => clearSlot
  | .writeSlot _ _ => writeSlot
  | .readSlot _ _ => readSlot
  | .setFailsafe _ _ => setFailsafe
  | .schedOpen _ _ => schedOpen
  | .schedAdd _ _ => schedAdd
  | .schedCommit _ _ => schedCommit
  | .schedDiscard _ _ => schedDiscard
  | .readSchedule _ _ => readSchedule
  | .sendOnce _ _ => sendOnce
  | .withdraw _ _ => withdraw
  | .routeSet _ _ => routeSet
  | .routeClear _ _ => routeClear
  | .readRoutes _ _ => readRoutes
  | .reportCredit _ _ => reportCredit
  | .reportAck _ _ => reportAck
  | _ => fun _ => refuse .unknownRequest

/-- A request row of the catalogue hands its frame to the handler, with its entry behind the check of the length (R157). -/
theorem exec_of_catalogue (hf : c.frame = some f) (hc : ∀ kind tag body, c ≠ .unknownRequest kind tag body) (s : State) :
    exec c s = handle f (checkLength f.kind (catalogueEntry c)) s := by
  cases c with
  | unknownRequest kind tag body => exact (hc _ _ _ rfl).elim
  | _ => cases hf <;> rfl

/-- An unknown code goes to the handler too, and its entry refuses whatever the body is (R157, R171). -/
theorem exec_of_unknown {kind tag : Byte} {body : List Byte} (hk : kind ∉ requestCodes) (s : State) :
    exec (.unknownRequest kind tag body) s = handle ⟨kind, tag, body⟩ (fun _ => refuse .unknownRequest) s := if_neg hk

theorem kind_mem_requestCodes (hf : c.frame = some f) (hc : ∀ kind tag body, c ≠ .unknownRequest kind tag body) :
    f.kind ∈ requestCodes := by
  cases c with
  | unknownRequest kind tag body => exact (hc _ _ _ rfl).elim
  | _ => cases hf <;> simp [requestCodes]

/-! ## Duplicates -/

/-- With one entry a tag, the entry that a request matches is the one found (R160, R161). -/
theorem Hli.cached_eq_some {h : Hli} {e : CacheEntry} (tagged : f.tag ≠ 0) (distinct : (h.cache.map fun x => x.reply.tag).Nodup)
    (held : e ∈ h.cache) (tag : e.reply.tag = f.tag) (code : e.reply.code = f.kind) (body : e.bodyCrc = crc16 f.body) :
    h.cached f = some e := by
  rw [Hli.cached, if_neg tagged]
  cases found : h.cache.find? fun e => e.reply.tag = f.tag ∧ e.reply.code = f.kind ∧ e.bodyCrc = crc16 f.body with
  | none => simpa [tag, code, body] using List.find?_eq_none.mp found e held
  | some x =>
    obtain ⟨hx, -⟩ : x.reply.tag = f.tag ∧ x.reply.code = f.kind ∧ x.bodyCrc = crc16 f.body := by simpa using List.find?_some found
    rw [List.inj_on_of_nodup_map distinct (List.mem_of_find?_eq_some found) held (hx.trans tag.symm)]

/-- What the handler does with a duplicate, whatever its entry would have done (R161). -/
theorem handle_of_cached {e : CacheEntry} (act : List Byte → State → State × Answer) (running : s.hli.handlerStopped = false)
    (place : s.hli.replies.length < 4) (oldest : s.hli.buffer.head? = some f) (cached : s.hli.cached f = some e) :
    handle f act s = .next (answerDuplicate e (s.onHli Hli.popBuffer)) := by
  have popped : (s.onHli Hli.popBuffer).hli.cached f = some e := cached
  rw [handle, if_neg (by rw [running]; nofun), if_neg (Nat.not_le.mpr place), if_pos oldest]
  change (match (s.onHli Hli.popBuffer).hli.cached f with
    | some e => Host.Outcome.next (answerDuplicate e (s.onHli Hli.popBuffer))
    | none => .next (carryOut f act (s.onHli Hli.popBuffer))) = _
  rw [popped]

/-- Every request row goes to the handler (R157). -/
theorem exec_eq_handle (hf : c.frame = some f) (hc : ∀ kind tag body, c = .unknownRequest kind tag body → kind ∉ requestCodes) :
    ∃ act, ∀ s, exec c s = handle f act s := by
  by_cases hu : ∃ kind tag body, c = .unknownRequest kind tag body
  · obtain ⟨kind, tag, body, rfl⟩ := hu
    cases hf
    exact ⟨_, exec_of_unknown (hc _ _ _ rfl)⟩
  · exact ⟨_, exec_of_catalogue hf fun kind tag body e => hu ⟨kind, tag, body, e⟩⟩

/-- Settles O9: the handler answers from the cache ahead of every entry. -/
theorem duplicatesAreAnsweredFromTheCache : Obligations.DuplicatesAreAnsweredFromTheCache := by
  intro s c f e hf hc running place oldest tagged distinct held tag code body
  obtain ⟨act, hexec⟩ := exec_eq_handle hf hc
  rw [hexec, handle_of_cached act running place oldest (Hli.cached_eq_some tagged distinct held tag code body)]
  rfl

/-! ## The first checks -/

/-- The table of R171: each code with the least and the greatest length of its body. -/
def requestTable : List (Byte × Nat × Nat) :=
  [(0x01, 0, 0), (0x02, 0, 0), (0x03, 0, 0), (0x04, 1, 1), (0x05, 1, 1), (0x10, 10, 10), (0x11, 1, 1), (0x12, 1, 1),
    (0x13, 1, 1), (0x14, 1, 1), (0x15, 2, 2), (0x16, 1, 1), (0x20, 7, 7), (0x21, 2, 2), (0x22, 2, 14), (0x23, 2, 2),
    (0x24, 3, 15), (0x28, 1, 1), (0x29, 3, 49), (0x2A, 1, 1), (0x2B, 1, 1), (0x2C, 3, 3), (0x30, 2, 14), (0x31, 2, 2),
    (0x34, 6, 6), (0x35, 1, 1), (0x36, 0, 0), (0x38, 1, 1), (0x39, 2, 2)]

theorem requestTable_codes : requestTable.map Prod.fst = requestCodes := rfl

/-- The lengths that the model admits for a code are those of its row (R171). -/
theorem bodyLengthOk_of_row (n : Nat) : ∀ row ∈ requestTable,
    (bodyLengthOk row.1 n = true ↔ row.2.1 ≤ n ∧ n ≤ row.2.2 ∧ (row.1 = 0x29 → n % 2 = 1)) := by
  simp only [requestTable, List.forall_mem_cons]
  simp [bodyLengthOk]
  omega

theorem refuses_badLength (hf : c.frame = some f) (hc : ∀ kind tag body, c ≠ .unknownRequest kind tag body) (h : Takes s f)
    (hlen : bodyLengthOk f.kind f.body.length = false) : Refuses c f s .badLength :=
  refuses_of_act h (exec_of_catalogue hf hc s) (if_neg (by rw [hlen]; nofun)) nofun

theorem withLane_none {b : Byte} {k : LaneId → State × Answer} (h : laneOf b = none) : withLane b s k = refuse .badLane s := by
  rw [withLane, h]

/-- The rows whose entry begins with the lane, in a body of the length that R171 gives, refuse a lane that is none (R171). -/
theorem catalogueEntry_badLane {lane : Byte} {rest : List Byte} (hf : c.frame = some f) (hc : c.checksLaneFirst = true)
    (hlen : bodyLengthOk f.kind f.body.length = true) (hb : f.body = lane :: rest) (hl : laneOf lane = none) :
    catalogueEntry c f.body s = refuse .badLane s := by
  rw [hb] at hlen ⊢
  cases c
  case laneStart | laneHalt | laneSleep | laneWake | clearCapture | schedOpen | schedCommit | schedDiscard =>
    cases hf
    have length : rest.length = 0 := by simpa [bodyLengthOk] using hlen
    match rest, length with
    | [], _ => exact withLane_none hl
  case readLaneStatus | clearSlot | readSlot =>
    cases hf
    have length : rest.length = 1 := by simpa [bodyLengthOk] using hlen
    match rest, length with
    | [_], _ => exact withLane_none hl
  case readSchedule =>
    cases hf
    have length : rest.length = 2 := by simpa [bodyLengthOk] using hlen
    match rest, length with
    | [_, _], _ => exact withLane_none hl
  case defineSlot =>
    cases hf
    have length : rest.length = 6 := by simpa [bodyLengthOk] using hlen
    match rest, length with
    | [_, _, _, _, _, _], _ => exact withLane_none hl
  case configLane | schedAdd => exact withLane_none hl
  case writeSlot | sendOnce =>
    cases hf
    have atLeast : 1 ≤ rest.length := by simp [bodyLengthOk] at hlen; omega
    match rest, atLeast with
    | _ :: _, _ => exact withLane_none hl
  case setFailsafe =>
    cases hf
    have atLeast : 2 ≤ rest.length := by simp [bodyLengthOk] at hlen; omega
    match rest, atLeast with
    | _ :: _ :: _, _ => exact withLane_none hl
  all_goals cases hc

/-- Settles O11: an unknown code goes to no entry, the length is checked ahead of the entry, and the entry begins with the lane. -/
theorem kindLengthAndLaneAreCheckedFirst : Obligations.KindLengthAndLaneAreCheckedFirst := by
  unfold Obligations.KindLengthAndLaneAreCheckedFirst
  intro table given
  have allowed {code : Byte} {n : Nat} (h : given code n) : bodyLengthOk code n = true := by
    obtain ⟨row, hrow, rfl, bounds⟩ := h
    exact (bodyLengthOk_of_row n row hrow).mpr bounds
  refine ⟨fun s kind tag body unknown h => ?_, fun s c f hf hc h outside => ?_, fun s c f lane rest hf first h inside hb hl => ?_⟩
  · exact refuses_of_act h (exec_of_unknown unknown s) rfl nofun
  · refine refuses_badLength hf hc h (Bool.eq_false_iff.mpr fun hlen => outside ?_)
    obtain ⟨row, hrow, hcode⟩ := List.mem_map.mp (requestTable_codes ▸ kind_mem_requestCodes hf hc)
    exact ⟨row, hrow, hcode, hcode ▸ (bodyLengthOk_of_row f.body.length row hrow).mp (hcode ▸ hlen)⟩
  · have hc : ∀ kind tag body, c ≠ .unknownRequest kind tag body := by rintro _ _ _ rfl; cases first
    refine refuses_of_act h (exec_of_catalogue hf hc s) ?_ nofun
    exact (if_pos (allowed inside)).trans (catalogueEntry_badLane hf first (allowed inside) hb (laneOf_of_le hl))

end Sys2Proof.Machine
end

section
/-!
Every request is answered once: what an entry of the catalogue leaves to the handler, and what the handler makes of the answer (R157, R159,
R160).
-/

namespace Sys2Proof.Machine

open Sys2Proof

variable {l : LaneId} {s t : State}

/-! ## What an entry leaves to the handler -/

/-- The receive buffer, the reply queue and the reply cache are as they were. -/
structure HandlerKept (s t : State) : Prop where
  buffer : t.hli.buffer = s.hli.buffer
  replies : t.hli.replies = s.hli.replies
  cache : t.hli.cache = s.hli.cache

/-- An entry accepts its request and leaves the handler's part of the host link alone, or refuses it and changes nothing (R157). -/
inductive Entered (s : State) : State × Answer → Prop where
  | accepted {fields : List Byte} {t : State} (h : HandlerKept s t) : Entered s (accept fields t)
  | refused {status : Status} (h : status ≠ .ok) : Entered s (refuse status s)

theorem HandlerKept.of_hli (h : t.hli = s.hli) : HandlerKept s t := by
  constructor <;> rw [h]

/-- A request accepted that changes nothing of the Host Link Interface. -/
theorem entered_of_hli {fields : List Byte} (h : t.hli = s.hli) : Entered s (accept fields t) := .accepted (.of_hli h)

theorem entered_ite {p : Prop} [Decidable p] {a b : State × Answer} (ha : p → Entered s a) (hb : ¬ p → Entered s b) :
    Entered s (if p then a else b) := by
  split
  · exact ha ‹_›
  · exact hb ‹_›

theorem entered_withLane {b : Byte} {k : LaneId → State × Answer} (h : ∀ l, Entered s (k l)) : Entered s (withLane b s k) := by
  unfold withLane
  split
  · exact .refused nofun
  · exact h _

theorem entered_withUserSlot {b : Byte} {k : SlotId → State × Answer} (h : ∀ slot, Entered s (k slot)) :
    Entered s (withUserSlot b s k) := by
  unfold withUserSlot
  split
  · exact .refused nofun
  · exact h _

theorem entered_withHostPublished {r : SlotRef} {k : PublishedRec → State × Answer} (h : ∀ p, Entered s (k p)) :
    Entered s (withHostPublished r s k) := by
  unfold withHostPublished
  split
  case h_4 => exact entered_ite (fun _ => .refused nofun) fun _ => h _
  all_goals exact .refused nofun

theorem entered_laneAlone {k : LaneId → State → State × Answer} (h : ∀ l, Entered s (k l s)) (body : List Byte) :
    Entered s (laneAlone k body s) := by
  unfold laneAlone
  split
  · exact entered_withLane h
  · exact .refused nofun

theorem entered_checkLength {code : Byte} {act : List Byte → State → State × Answer} {body : List Byte} (h : Entered s (act body s)) :
    Entered s (checkLength code act body s) := entered_ite (fun _ => h) fun _ => .refused nofun

/-! ## Link and report requests -/

theorem entered_readLinkStatus (body : List Byte) (s : State) : Entered s (readLinkStatus body s) := by
  unfold readLinkStatus
  split
  · split
    · exact .refused nofun
    · refine .accepted ?_
      split
      · exact ⟨rfl, rfl, rfl⟩
      · exact .of_hli rfl
  · exact .refused nofun

theorem entered_setSilenceLimit (body : List Byte) (s : State) : Entered s (setSilenceLimit body s) := by
  unfold setSilenceLimit
  split
  · exact .accepted ⟨rfl, rfl, rfl⟩
  · exact .refused nofun

theorem entered_reportCredit (body : List Byte) (s : State) : Entered s (reportCredit body s) := by
  unfold reportCredit
  split
  · split
    · exact .refused nofun
    · exact .accepted ⟨rfl, rfl, rfl⟩
  · exact .refused nofun

theorem entered_reportAck (body : List Byte) (s : State) : Entered s (reportAck body s) := by
  unfold reportAck
  split
  · split
    · exact .refused nofun
    · exact entered_of_hli rfl
  · exact .refused nofun

/-! ## Lane requests -/

theorem hli_requestRecovery (l : LaneId) (r : Resume) (s : State) : (requestRecovery l r s).hli = s.hli := by
  unfold requestRecovery
  simp only
  split
  · rfl
  · split
    · exact (OnlyLane.leaveFaulted ..).hli
    · rfl

theorem entered_configLane (body : List Byte) (s : State) : Entered s (configLane body s) := by
  unfold configLane
  split
  · refine entered_withLane fun l => ?_
    split
    · exact .refused nofun
    · exact entered_ite (fun _ => entered_of_hli rfl) fun _ => .refused nofun
  · exact .refused nofun

theorem entered_startLane (l : LaneId) (s : State) : Entered s (startLane l s) := by
  unfold startLane
  split
  case h_1 => exact entered_of_hli (OnlyLane.enterRunning ..).hli
  case h_5 | h_6 => exact entered_of_hli rfl
  case h_7 => exact entered_of_hli (hli_requestRecovery ..)
  all_goals exact .refused nofun

theorem entered_haltLane (l : LaneId) (s : State) : Entered s (haltLane l s) := by
  unfold haltLane
  split
  case h_1 =>
    exact entered_ite (fun _ => entered_of_hli rfl) fun _ => entered_of_hli (OnlyLane.enterHalted l (resetRound l s) .request).hli
  case h_5 | h_6 => exact entered_of_hli rfl
  case h_7 => exact entered_of_hli (hli_requestRecovery ..)
  all_goals exact .refused nofun

theorem entered_sleepLane (l : LaneId) (s : State) : Entered s (sleepLane l s) := by
  unfold sleepLane
  split
  · exact entered_of_hli (laneMoves_enterSleepPending ..).onlyLane.hli
  · exact entered_of_hli (laneMoves_enterSleepPending l .running (resetRound l (forbidFollowUps l s))).onlyLane.hli
  all_goals exact .refused nofun

theorem entered_wakeLane (l : LaneId) (s : State) : Entered s (wakeLane l s) := by
  unfold wakeLane
  split
  · exact entered_of_hli rfl
  all_goals exact .refused nofun

theorem entered_readLaneStatus (body : List Byte) (s : State) : Entered s (readLaneStatus body s) := by
  unfold readLaneStatus
  split
  · refine entered_withLane fun l => ?_
    split
    · exact .refused nofun
    · refine entered_of_hli ?_
      split <;> rfl
  · exact .refused nofun

/-! ## Schedule requests -/

theorem entered_schedOpen (body : List Byte) (s : State) : Entered s (schedOpen body s) := by
  unfold schedOpen
  split
  · exact entered_withLane fun l => entered_of_hli rfl
  · exact .refused nofun

/-- An entry of SCHED_ADD that fails is refused (R74, R187). -/
theorem entryOf_ne_ok {slot timing : Byte} : entryOf s l slot timing ≠ .error .ok := by
  unfold entryOf
  split
  · nofun
  · split <;> nofun

theorem entriesOf_ne_ok {carried : List Byte} : entriesOf s l carried ≠ .error .ok := by
  induction carried using entriesOf.induct s l with
  | case1 slot timing rest e he =>
    rw [entriesOf, he]
    rintro ⟨⟩
    exact entryOf_ne_ok he
  | case2 slot timing rest e he ih =>
    rw [entriesOf, he]
    cases hr : entriesOf s l rest with
    | error status =>
      rintro ⟨⟩
      exact ih hr
    | ok entries => nofun
  | case3 carried short => rw [entriesOf.eq_2 s l carried short]; nofun

theorem entered_schedAdd (body : List Byte) (s : State) : Entered s (schedAdd body s) := by
  unfold schedAdd
  split
  · refine entered_withLane fun l => ?_
    split
    · exact .refused nofun
    · split
      · rename_i e he
        exact .refused fun ok => entriesOf_ne_ok (ok ▸ he)
      · exact entered_ite (fun _ => entered_of_hli rfl) fun _ => .refused nofun
  · exact .refused nofun

theorem entered_schedCommit (body : List Byte) (s : State) : Entered s (schedCommit body s) := by
  unfold schedCommit
  split
  · refine entered_withLane fun l => ?_
    split
    · exact .refused nofun
    · rename_i entries _
      have swapped (u : State) : (swapStaged l u).hli = u.hli := (OnlyLane.swapStaged l u).hli
      refine entered_ite (fun _ => entered_of_hli ?_) fun _ => entered_of_hli rfl
      split
      · exact (OnlyLane.choose ..).hli.trans (swapped _)
      · exact swapped _
  · exact .refused nofun

theorem entered_schedDiscard (body : List Byte) (s : State) : Entered s (schedDiscard body s) := by
  unfold schedDiscard
  split
  · refine entered_withLane fun l => ?_
    split
    · exact .refused nofun
    · exact entered_of_hli rfl
  · exact .refused nofun

theorem entered_readSchedule (body : List Byte) (s : State) : Entered s (readSchedule body s) := by
  unfold readSchedule
  split
  · refine entered_withLane fun l => ?_
    split
    · exact entered_of_hli rfl
    · exact .refused nofun
  · exact .refused nofun

/-! ## One-shot requests -/

/-- A one-shot that the record or its data does not allow is refused (R94). -/
theorem oneShotOf_ne_ok {r : SlotRecord} {routeFed : Bool} {data : List Byte} : oneShotOf r routeFed data ≠ .error .ok := by
  unfold oneShotOf
  split
  · nofun
  · split <;> nofun
  · split <;> nofun
  · split
    · nofun
    · split <;> nofun

theorem entered_queueOneShot (k : SlotId) (kind : OneShotKind) (data : Option (List Byte)) (s : State) :
    Entered s (queueOneShot l k kind data s) := by
  refine entered_of_hli ?_
  split
  · exact (OnlyLane.choose ..).hli
  · rfl

theorem entered_sendOnce (body : List Byte) (s : State) : Entered s (sendOnce body s) := by
  unfold sendOnce
  split
  · refine entered_withLane fun l => entered_withUserSlot fun k => entered_ite (fun _ => .refused nofun) fun _ =>
      entered_ite (fun _ => .refused nofun) fun _ => ?_
    split
    · rename_i e he
      exact .refused fun ok => oneShotOf_ne_ok (ok ▸ he)
    · exact entered_ite (fun _ => entered_queueOneShot ..) fun _ => .refused nofun
  · exact .refused nofun

theorem entered_withdraw (body : List Byte) (s : State) : Entered s (withdraw body s) := by
  unfold withdraw
  split
  · simp only
    split
    · exact entered_of_hli rfl
    · exact entered_ite (fun _ => .refused nofun) fun _ => .refused nofun
  · exact .refused nofun

/-! ## Slot and route requests -/

theorem entered_defineSlot (body : List Byte) (s : State) : Entered s (defineSlot body s) := by
  unfold defineSlot
  split
  · refine entered_withLane fun l => entered_withUserSlot fun k => ?_
    split
    · exact .refused nofun
    · exact entered_ite (fun _ => .refused nofun) fun _ => entered_of_hli rfl
  · exact .refused nofun

theorem entered_clearSlot (body : List Byte) (s : State) : Entered s (clearSlot body s) := by
  unfold clearSlot
  split
  · exact entered_withLane fun l => entered_withUserSlot fun k =>
      entered_ite (fun _ => .refused nofun) fun _ => entered_of_hli rfl
  · exact .refused nofun

theorem entered_writeSlot (body : List Byte) (s : State) : Entered s (writeSlot body s) := by
  unfold writeSlot
  split
  · exact entered_withLane fun l => entered_withUserSlot fun k => entered_withHostPublished fun p =>
      entered_ite (fun _ => entered_of_hli rfl) fun _ => .refused nofun
  · exact .refused nofun

theorem entered_readSlot (body : List Byte) (s : State) : Entered s (readSlot body s) := by
  unfold readSlot
  split
  · refine entered_withLane fun l => ?_
    split
    · exact .refused nofun
    · exact entered_of_hli rfl
  · exact .refused nofun

theorem entered_setFailsafe (body : List Byte) (s : State) : Entered s (setFailsafe body s) := by
  unfold setFailsafe
  split
  · refine entered_withLane fun l => entered_withUserSlot fun k => ?_
    split
    · exact .refused nofun
    · exact entered_withHostPublished fun p => entered_ite (fun _ => entered_of_hli rfl) fun _ => .refused nofun
  · exact .refused nofun

/-- A route that may not be set is refused (R107). -/
theorem routeRefusal_ne_ok {i : Fin 16} {r : Route} : routeRefusal s i r ≠ some .ok := by
  unfold routeRefusal
  split
  case h_3 | h_4 =>
    split
    · nofun
    · split <;> nofun
  all_goals nofun

theorem hli_clearFailsafeActive (s : State) (r : SlotRef) : (s.clearFailsafeActive r).hli = s.hli := by
  unfold State.clearFailsafeActive
  split <;> rfl

theorem entered_routeSet (body : List Byte) (s : State) : Entered s (routeSet body s) := by
  unfold routeSet
  split
  · split
    · exact .refused nofun
    · refine entered_withLane fun sl => entered_withLane fun dl => entered_withUserSlot fun sk => entered_withUserSlot fun dk => ?_
      split
      · exact .refused nofun
      · simp only
        split
        · rename_i status refused
          exact .refused fun ok => routeRefusal_ne_ok (ok ▸ refused)
        · exact entered_of_hli (hli_clearFailsafeActive ..)
  · exact .refused nofun

theorem entered_routeClear (body : List Byte) (s : State) : Entered s (routeClear body s) := by
  unfold routeClear
  split
  · split
    · exact .refused nofun
    · exact entered_of_hli rfl
  · exact .refused nofun

/-! ## Every entry -/

/-- Every entry but that of LINK_RESET, which empties the cache, leaves the handler's part of the host link alone. -/
theorem entered_catalogueEntry {c : Instr} (hc : ∀ tag body, c ≠ .linkReset tag body) (body : List Byte) (s : State) :
    Entered s (catalogueEntry c body s) := by
  cases c with
  | linkReset tag body => exact (hc _ _ rfl).elim
  | hello => exact entered_of_hli rfl
  | softReset => exact .accepted ⟨rfl, rfl, rfl⟩
  | readLinkStatus => exact entered_readLinkStatus ..
  | setSilenceLimit => exact entered_setSilenceLimit ..
  | configLane => exact entered_configLane ..
  | laneStart => exact entered_laneAlone (fun l => entered_startLane l s) body
  | laneHalt => exact entered_laneAlone (fun l => entered_haltLane l s) body
  | laneSleep => exact entered_laneAlone (fun l => entered_sleepLane l s) body
  | laneWake => exact entered_laneAlone (fun l => entered_wakeLane l s) body
  | readLaneStatus => exact entered_readLaneStatus ..
  | clearCapture => exact entered_laneAlone (k := clearCapture) (fun l => entered_of_hli rfl) body
  | defineSlot => exact entered_defineSlot ..
  | clearSlot => exact entered_clearSlot ..
  | writeSlot => exact entered_writeSlot ..
  | readSlot => exact entered_readSlot ..
  | setFailsafe => exact entered_setFailsafe ..
  | schedOpen => exact entered_schedOpen ..
  | schedAdd => exact entered_schedAdd ..
  | schedCommit => exact entered_schedCommit ..
  | schedDiscard => exact entered_schedDiscard ..
  | readSchedule => exact entered_readSchedule ..
  | sendOnce => exact entered_sendOnce ..
  | withdraw => exact entered_withdraw ..
  | routeSet => exact entered_routeSet ..
  | routeClear => exact entered_routeClear ..
  | readRoutes => exact entered_of_hli rfl
  | reportCredit => exact entered_reportCredit ..
  | reportAck => exact entered_reportAck ..
  | _ => exact .refused nofun

/-! ## The answer -/

/-- The reply cache after a request that makes an entry: as it was for a request with tag 0, and otherwise with the reply as the newest
entry (R160). -/
def CachedAfter (s : State) (f : Frame) (r : Reply) (cache : List CacheEntry) : Prop :=
  (f.tag = 0 → cache = s.hli.cache)
    ∧ (f.tag ≠ 0 → ∃ kept, cache = kept ++ [{ bodyCrc := crc16 f.body, reply := r }]
        ∧ ((∃ e ∈ s.hli.cache, e.reply.tag = f.tag) → kept = s.hli.cache.filter fun e => e.reply.tag ≠ f.tag)
        ∧ ((∀ e ∈ s.hli.cache, e.reply.tag ≠ f.tag) →
            kept = if s.hli.cache.length < 8 then s.hli.cache else s.hli.cache.tail))

/-- A new entry takes the place of an older one of its tag, or else of the oldest where 9 would be held (R160). -/
theorem insertCache_eq (cache : List CacheEntry) (e : CacheEntry) :
    ∃ kept, insertCache cache e = kept ++ [e]
      ∧ ((∃ c ∈ cache, c.reply.tag = e.reply.tag) → kept = cache.filter fun c => c.reply.tag ≠ e.reply.tag)
      ∧ ((∀ c ∈ cache, c.reply.tag ≠ e.reply.tag) → kept = if cache.length < 8 then cache else cache.tail) := by
  by_cases held : ∃ c ∈ cache, c.reply.tag = e.reply.tag
  · have older : (cache.any fun c => c.reply.tag = e.reply.tag) = true := by simpa using held
    obtain ⟨c, hc, hct⟩ := held
    exact ⟨_, if_pos older, fun _ => rfl, fun none => (none c hc hct).elim⟩
  · have fresh : ¬ (cache.any fun c => c.reply.tag = e.reply.tag) = true := by simpa using held
    refine ⟨if cache.length < 8 then cache else cache.tail, (if_neg fresh).trans ?_, fun h => (held h).elim, fun _ => rfl⟩
    split
    · rfl
    · rw [List.drop_one]

theorem cachedAfter_answered {f : Frame} {status : Status} {fields : List Byte} (h : t.hli.cache = s.hli.cache) :
    CachedAfter s f { tag := f.tag, code := f.kind, status, fields } (t.hli.answered f status fields).cache := by
  refine ⟨fun zero => ?_, fun tagged => ?_⟩
  · simp only [Hli.answered, zero, if_true, h]
  · simp only [Hli.answered, tagged, if_false, h]
    exact insertCache_eq s.hli.cache { bodyCrc := crc16 f.body, reply := { tag := f.tag, code := f.kind, status, fields } }

/-- A frame taken is answered by one reply, and a refusal changes nothing else (R157, R159, R160). -/
def AnsweredOnce (c : Instr) (f : Frame) (s : State) : Prop :=
  ∃ t r, exec c s = .next t ∧ r.tag = f.tag ∧ r.code = f.kind ∧ t.hli.replies = s.hli.replies ++ [r]
    ∧ t.hli.buffer = s.hli.buffer.tail
    ∧ (f.kind = 0x03 → r.status = .ok → t.hli.cache = [])
    ∧ (f.kind ≠ 0x03 ∨ r.status ≠ .ok → CachedAfter s f r t.hli.cache)
    ∧ (r.status ≠ .ok → r.fields = [] ∧ Refuses c f s r.status)

theorem answeredOnce_of_refuses {c : Instr} {f : Frame} {status : Status} (hs : status ≠ .ok) (h : Refuses c f s status) :
    AnsweredOnce c f s :=
  ⟨_, { tag := f.tag, code := f.kind, status, fields := [] }, h, rfl, rfl, rfl, rfl, fun _ ok => (hs ok).elim,
    fun _ => cachedAfter_answered rfl, fun _ => ⟨rfl, h⟩⟩

theorem answeredOnce_of_accepts {c : Instr} {f : Frame} {fields : List Byte} (hf : f.kind ≠ 0x03) (kept : HandlerKept s t)
    (h : Answers c f s .ok fields t) : AnsweredOnce c f s :=
  ⟨_, { tag := f.tag, code := f.kind, status := .ok, fields }, h, rfl, rfl, congrArg (· ++ _) kept.replies,
    congrArg List.tail kept.buffer, fun reset => (hf reset).elim, fun _ => cachedAfter_answered kept.cache, fun no => (no rfl).elim⟩

/-- A frame whose entry accepts it, or refuses it, is answered once. -/
theorem answeredOnce_of_entered {c : Instr} {f : Frame} {act : List Byte → State → State × Answer} (h : Takes s f)
    (hexec : exec c s = handle f act s) (hf : f.kind ≠ 0x03)
    (hact : Entered (s.onHli Hli.popBuffer) (act f.body (s.onHli Hli.popBuffer))) : AnsweredOnce c f s := by
  generalize he : act f.body (s.onHli Hli.popBuffer) = a at hact
  cases hact with
  | refused hs => exact answeredOnce_of_refuses hs (refuses_of_act h hexec he hs)
  | @accepted fields t kept =>
    have whole : (t.onHli fun h => { h with buffer := s.hli.buffer }).onHli Hli.popBuffer = t := by
      have popped : t.hli.buffer = s.hli.buffer.tail := kept.buffer
      simp only [State.onHli, Hli.popBuffer, ← popped]
    exact answeredOnce_of_accepts (t := t.onHli fun h => { h with buffer := s.hli.buffer }) hf ⟨rfl, kept.replies, kept.cache⟩
      (answers_of_act h hexec (he.trans (congrArg (accept fields) whole.symm)) (.inl hf))

/-- A LINK_RESET accepted empties the cache, and one with a body is refused (R160, R166). -/
theorem answeredOnce_linkReset {tag : Byte} {body : List Byte} (h : Takes s ⟨0x03, tag, body⟩) :
    AnsweredOnce (.linkReset tag body) ⟨0x03, tag, body⟩ s := by
  cases body with
  | nil => exact ⟨_, _, exec_linkReset h, rfl, rfl, rfl, rfl, fun _ _ => rfl, fun other => by simp at other, fun no => (no rfl).elim⟩
  | cons b rest => exact answeredOnce_of_refuses (status := .badLength) nofun (refuses_badLength rfl (fun _ _ _ => nofun) h rfl)

theorem kind_ne_linkReset {c : Instr} {f : Frame} (hf : c.frame = some f) (hu : ∀ kind tag body, c ≠ .unknownRequest kind tag body)
    (hc : ∀ tag body, c ≠ .linkReset tag body) : f.kind ≠ 0x03 := by
  cases c with
  | unknownRequest kind tag body => exact (hu _ _ _ rfl).elim
  | linkReset tag body => exact (hc _ _ rfl).elim
  | _ => cases hf <;> simp

/-- Settles O10: an unknown code, LINK_RESET and every other request, by what their entries leave to the handler. -/
theorem everyRequestIsAnsweredOnce : Obligations.EveryRequestIsAnsweredOnce := by
  intro s c f hf hu h
  change AnsweredOnce c f s
  by_cases unknown : ∃ kind tag body, c = .unknownRequest kind tag body
  · obtain ⟨kind, tag, body, rfl⟩ := unknown
    cases hf
    exact answeredOnce_of_refuses (status := .unknownRequest) nofun (refuses_of_act h (exec_of_unknown (hu _ _ _ rfl) s) rfl nofun)
  · by_cases reset : ∃ tag body, c = .linkReset tag body
    · obtain ⟨tag, body, rfl⟩ := reset
      cases hf
      exact answeredOnce_linkReset h
    · simp only [not_exists] at unknown reset
      exact answeredOnce_of_entered h (exec_of_catalogue hf unknown s) (kind_ne_linkReset hf unknown reset)
        (entered_checkLength (entered_catalogueEntry reset ..))

end Sys2Proof.Machine
end

section
/-!
The report requests: REPORT_CREDIT and REPORT_ACK (R141, R142, R144, R145, R194, R195).
-/

namespace Sys2Proof.Machine

open Sys2Proof

variable {s : State} {q : ReportQueue} {before after : List SentReport} {r : SentReport} {seq : Nat}

/-! ## REPORT_CREDIT (R142, R194) -/

theorem reportCredit_refuses {n : Byte} (h : 16 < n.toNat) : reportCredit [n] s = refuse .badValue s := by
  have out : inRange n 0 16 = none := if_neg fun hn => Nat.not_lt.mpr hn.2 h
  simp only [reportCredit, out]

theorem reportCredit_accepts {n : Byte} (h : n.toNat ≤ 16) :
    reportCredit [n] s =
      accept [byte (min (s.hli.credit + n.toNat) (16 - s.reports.inFlight.length)), byte s.reports.inFlight.length,
          byte s.reports.unsent.length]
        (s.onHli fun h => { h with credit := min (s.hli.credit + n.toNat) (16 - s.reports.inFlight.length) }) := by
  have within : inRange n 0 16 = some n.toNat := if_pos ⟨Nat.zero_le _, h⟩
  simp only [reportCredit, within]

/-- Settles O37: the range of n decides, and taking the frame leaves the credit and the Report Queue as they were. -/
theorem reportCreditIsLimited : Obligations.ReportCreditIsLimited := by
  intro s tag n h credit
  have entry {status fields u} (hact : reportCredit [n] (s.onHli Hli.popBuffer) = (u.onHli Hli.popBuffer, ⟨status, fields⟩)) :
      Answers (.reportCredit tag [n]) ⟨0x38, tag, [n]⟩ s status fields u :=
    answers_of_entry h (act := reportCredit) rfl rfl (by decide) hact
  exact ⟨fun hn => entry (reportCredit_refuses hn), fun hn => entry (reportCredit_accepts hn)⟩

/-! ## Acknowledging (R141, R144, R145) -/

theorem ReportQueue.reportLoss_of_none (h : q.lostCount = 0) : q.reportLoss = q := if_pos h

theorem ReportQueue.reportLoss_of_lost (h : q.lostCount ≠ 0) :
    q.reportLoss = { q with unsent := q.unsent ++ [.reportsLost q.lostCount q.lostKinds], lostCount := 0, lostKinds := 0 } := if_neg h

@[simp] theorem ReportQueue.inFlight_reportLoss (q : ReportQueue) : q.reportLoss.inFlight = q.inFlight := by
  unfold ReportQueue.reportLoss
  split <;> rfl

theorem ReportQueue.acknowledge_eq_none (h : ∀ r ∈ q.inFlight, r.seq ≠ seq) : q.acknowledge seq = none := by
  have dropped : q.inFlight.dropWhile (fun r => r.seq != seq) = [] :=
    List.dropWhile_eq_nil_iff.mpr fun r hr => bne_iff_ne.mpr (h r hr)
  simp only [ReportQueue.acknowledge, dropped]

/-- The number reached first is the oldest record that holds it, and everything before it goes with it. -/
theorem ReportQueue.acknowledge_append (hq : q.inFlight = before ++ r :: after) (hr : r.seq = seq)
    (hbefore : ∀ x ∈ before, x.seq ≠ seq) :
    q.acknowledge seq = some (before.length + 1, ReportQueue.reportLoss { q with inFlight := after }) := by
  have dropped : q.inFlight.dropWhile (fun r => r.seq != seq) = r :: after := by
    rw [hq, List.dropWhile_append_of_pos fun x hx => bne_iff_ne.mpr (hbefore x hx),
      List.dropWhile_cons_of_neg (by simp [hr])]
  have removed : q.inFlight.length - after.length = before.length + 1 := by
    rw [hq, List.length_append, List.length_cons]
    omega
  simp only [ReportQueue.acknowledge, dropped, removed]

/-! ## REPORT_ACK (R195) -/

theorem reportAck_refuses {low high : Byte} (h : ∀ r ∈ s.reports.inFlight, r.seq ≠ word16 low high) :
    reportAck [low, high] s = refuse .badAck s := by
  simp only [reportAck, ReportQueue.acknowledge_eq_none h]

theorem reportAck_accepts {low high : Byte} (hq : s.reports.inFlight = before ++ r :: after) (hr : r.seq = word16 low high)
    (hbefore : ∀ x ∈ before, x.seq ≠ word16 low high) :
    reportAck [low, high] s = accept [byte (before.length + 1), byte after.length]
      { s with reports := ReportQueue.reportLoss { s.reports with inFlight := after } } := by
  simp only [reportAck, ReportQueue.acknowledge_append hq hr hbefore, ReportQueue.inFlight_reportLoss]

/-- Settles O38: the records split at the number named, and the lost count decides whether a REPORTS_LOST follows them. -/
theorem reportAckRemovesThroughTheNumber : Obligations.ReportAckRemovesThroughTheNumber := by
  intro s tag low high h c f seq q
  have entry {status fields u}
      (hact : reportAck [low, high] (s.onHli Hli.popBuffer) = (u.onHli Hli.popBuffer, ⟨status, fields⟩)) :
      Answers c f s status fields u := answers_of_entry h (act := reportAck) rfl rfl (by decide) hact
  refine ⟨fun hnone => entry (reportAck_refuses hnone), fun before r after hq hr hbefore => ?_⟩
  have accepted : Answers c f s .ok [byte (before.length + 1), byte after.length]
      { s with reports := ReportQueue.reportLoss { q with inFlight := after } } :=
    entry (reportAck_accepts (s := s.onHli Hli.popBuffer) hq hr hbefore)
  refine ⟨fun hlost => ?_, fun hlost => ?_⟩
  · rwa [ReportQueue.reportLoss_of_none (q := { q with inFlight := after }) hlost] at accepted
  · rwa [ReportQueue.reportLoss_of_lost (q := { q with inFlight := after }) hlost] at accepted

end Sys2Proof.Machine
end

section
/-!
The step and the queue of commands (log entry 7).
-/

namespace Sys2Proof.Machine

open Sys2Proof

/-- Settles O1: of the step's two cases the queue takes the one of a waiting command, and the front and rest it runs are the queue's. -/
theorem stepRunsFrontCommand : Obligations.StepRunsFrontCommand := by
  intro s c rest waiting
  unfold step
  split
  case h_1 empty => exact absurd (waiting.symm.trans empty) (List.cons_ne_nil c rest)
  case h_2 front behind queue =>
    obtain ⟨rfl, rfl⟩ := List.cons.inj (waiting.symm.trans queue)
    rfl

end Sys2Proof.Machine
end

section
/-!
When the tables agree, with everything that names a slot seen through the kinds and the lengths of the slot records alone: what each lane
engine must agree with, and which changes of a record or of a lane engine keep the agreement (R1 to R6, R22, R46, R72, R92, R106).
-/

namespace Sys2Proof.Machine

open Sys2Proof

variable {l : LaneId} {s t u : State} {ref : SlotRef} {x : SlotRecord}

/-! ## The form of a record -/

/-- What the schedules, the routes, the one-shots and the transactions rely on in a slot record: its kind, with its length rule or length
(R3, R5). -/
inductive Form where
  | undefined
  | polled (rule : LengthRule)
  | contended (rule : LengthRule)
  | published (length : Nat)

def SlotRecord.form : SlotRecord → Form
  | .undefined => .undefined
  | .polled r => .polled r.rule
  | .contended r => .contended r.rule
  | .published p => .published p.length

/-- The kind of call that a record of a form leads to (R46). -/
def Form.callKind : Form → Option CallKind
  | .undefined => none
  | .polled _ => some .polled
  | .contended _ => some .contended
  | .published _ => some .published

/-- The length rule of the responses of a slot of a form (R3). -/
def Form.lengthRule : Form → Option LengthRule
  | .polled rule | .contended rule => some rule
  | .undefined | .published _ => none

/-- What a one-shot of a slot of a form carries (R92). -/
def Form.Carries (f : Form) (o : OneShot) : Prop :=
  match f with
  | .undefined => False
  | .polled _ | .contended _ => o.kind = .poll ∧ o.data = none
  | .published length => o.kind = .publish ∧ ∃ d, o.data = some d ∧ d.length = length

theorem SlotRecord.callKind_form (x : SlotRecord) : x.form.callKind = x.callKind := by cases x <;> rfl

theorem SlotRecord.lengthRule_form (x : SlotRecord) : x.form.lengthRule = x.lengthRule := by cases x <;> rfl

theorem SlotRecord.form_eq_undefined_iff (x : SlotRecord) : x.form = .undefined ↔ x = .undefined := by
  cases x <;> simp [SlotRecord.form]

theorem SlotRecord.form_eq_published {x : SlotRecord} {n : Nat} (h : x.form = .published n) : ∃ p, x = .published p ∧ p.length = n := by
  cases x with
  | published p => exact ⟨p, rfl, by simpa [SlotRecord.form] using h⟩
  | undefined | polled | contended => cases h

/-- The forms of the slots of a lane. -/
def State.forms (s : State) (l : LaneId) : SlotId → Form := fun k => (s.slot ⟨l, k⟩).form

/-! ## What agrees with the forms -/

/-- A transaction agrees with the form of its slot, and a scheduled one and its follow-ups with the active schedule (R5, R46, R47). -/
structure CallAgrees (forms : SlotId → Form) (active : List Entry) (t : Transaction) : Prop where
  kind : (forms t.slot).callKind = some t.kind
  sleep : t.source = .sleepCall ↔ t.slot = 0
  entry : t.source = .scheduled ∨ t.source = .followUp → ∃ e ∈ active, e.slot = t.slot
  header : ∀ h, t.header = some h → ∃ rule, (forms t.slot).lengthRule = some rule ∧ rule.admits h.length = true

/-- Everything of a lane engine that names a slot agrees with the forms of its slots. -/
structure LaneAgrees (forms : SlotId → Form) (L : Lane) : Prop where
  entries : ∀ e ∈ L.entries, e.slot ≠ 0 ∧ forms e.slot ≠ .undefined ∧ e.phase < 2 ^ e.exponent.val
  oneShots : ∀ o ∈ L.oneShots, o.slot ≠ 0 ∧ (forms o.slot).Carries o
  call : ∀ t, L.transaction = some t → CallAgrees forms L.schedules.active t

/-- The slot records are well formed, the sleep slots and the ends of the routes among them. -/
structure RecordsWf (s : State) : Prop where
  sleep : ∀ l, ∃ o, s.slot ⟨l, 0⟩ = sleepSlot o
  records : ∀ r, RecordWf (s.slot r)
  routes : RoutesWf s

theorem SlotRecord.carries_form (x : SlotRecord) (o : OneShot) : x.form.Carries o ↔
    match x with
    | .undefined => False
    | .polled _ | .contended _ => o.kind = .poll ∧ o.data = none
    | .published p => o.kind = .publish ∧ ∃ d, o.data = some d ∧ d.length = p.length := by
  cases x <;> rfl

theorem TablesWf.laneAgrees (w : TablesWf s) (l : LaneId) : LaneAgrees (s.forms l) (s.lane l) where
  entries e he := by
    obtain ⟨user, defined, phase⟩ := w.entries l e he
    exact ⟨user, mt (SlotRecord.form_eq_undefined_iff _).mp defined, phase⟩
  oneShots o ho := by
    obtain ⟨user, carries⟩ := w.oneShots l o ho
    exact ⟨user, (SlotRecord.carries_form ..).mpr carries⟩
  call t ht := by
    refine ⟨(SlotRecord.callKind_form _).trans (w.calls.kind l t ht), w.calls.sleep l t ht, w.calls.entry l t ht, fun h hh => ?_⟩
    obtain ⟨rule, held, admits⟩ := w.calls.header l t h ht hh
    exact ⟨rule, (SlotRecord.lengthRule_form _).trans held, admits⟩

theorem TablesWf.recordsWf (w : TablesWf s) : RecordsWf s := ⟨w.sleep, w.records, w.routes⟩

theorem RecordsWf.tablesWf (w : RecordsWf s) (h : ∀ l, LaneAgrees (s.forms l) (s.lane l)) : TablesWf s where
  sleep := w.sleep
  records := w.records
  entries l e he := by
    obtain ⟨user, defined, phase⟩ := (h l).entries e he
    exact ⟨user, mt (SlotRecord.form_eq_undefined_iff _).mpr defined, phase⟩
  routes := w.routes
  oneShots l o ho := by
    obtain ⟨user, carries⟩ := (h l).oneShots o ho
    exact ⟨user, (SlotRecord.carries_form ..).mp carries⟩
  calls :=
    { kind := fun l t ht => (SlotRecord.callKind_form _).symm.trans ((h l).call t ht).kind
      sleep := fun l t ht => ((h l).call t ht).sleep
      entry := fun l t ht => ((h l).call t ht).entry
      header := fun l t hd ht hh => by
        obtain ⟨rule, held, admits⟩ := ((h l).call t ht).header hd hh
        exact ⟨rule, (SlotRecord.lengthRule_form _).symm.trans held, admits⟩ }

/-! ## A change of one lane engine -/

/-- The agreement is about the slot records, the lane engines and the routes alone. -/
theorem TablesWf.congr (w : TablesWf s) (hs : t.slots = s.slots) (hl : t.lanes = s.lanes) (hr : t.routes = s.routes) : TablesWf t := by
  have slot (r : SlotRef) : t.slot r = s.slot r := State.slot_of_slots hs r
  have lane (l : LaneId) : t.lane l = s.lane l := by simp only [State.lane, hl]
  have route (i : Fin 16) : t.route i = s.route i := State.route_of_routes hr i
  obtain ⟨sleep, records, entries, ⟨user, ends, single⟩, oneShots, ⟨kind, asleep, entry, header⟩⟩ := w
  constructor <;> try constructor
  all_goals simp only [EntriesWf, OneShotsWf, slot, lane, route]; assumption

/-- A change of one lane engine, which still agrees. -/
theorem TablesWf.setLane (w : TablesWf s) {M : Lane} (h : LaneAgrees (s.forms l) M) (q : ReportQueue) :
    TablesWf { s.setLane l M with reports := q } := by
  refine RecordsWf.tablesWf ⟨w.sleep, w.records, w.routes.user, w.routes.ends, w.routes.single⟩ fun m => ?_
  show LaneAgrees (s.forms m) ((s.setLane l M).lane m)
  by_cases hm : m = l
  · subst hm
    rwa [State.lane_setLane_self]
  · rw [State.lane_setLane_of_ne s M hm]
    exact w.laneAgrees m

theorem TablesWf.onLane (w : TablesWf s) {f : Lane → Lane} (h : LaneAgrees (s.forms l) (f (s.lane l))) : TablesWf (s.onLane l f) :=
  w.setLane h s.reports

theorem TablesWf.report (w : TablesWf s) (r : Report) : TablesWf (s.report r) := w.congr rfl rfl rfl

theorem tablesWf_ite {p : Prop} [Decidable p] (hs : p → TablesWf s) (ht : ¬ p → TablesWf t) : TablesWf (if p then s else t) := by
  split
  · exact hs ‹_›
  · exact ht ‹_›

section

variable {forms : SlotId → Form} {L M : Lane}

/-- A lane engine agrees as long as it names nothing more, and its transaction agrees with its active schedule. -/
theorem LaneAgrees.of_subset (h : LaneAgrees forms L) (he : M.entries ⊆ L.entries) (ho : M.oneShots ⊆ L.oneShots)
    (ht : ∀ t, M.transaction = some t → CallAgrees forms M.schedules.active t) : LaneAgrees forms M :=
  ⟨fun e hm => h.entries e (he hm), fun o hm => h.oneShots o (ho hm), ht⟩

/-- A change of the lane engine beside its schedules, its one-shots and its transaction. -/
theorem LaneAgrees.of_same (h : LaneAgrees forms L) (hs : M.schedules = L.schedules) (ho : M.oneShots = L.oneShots)
    (ht : M.transaction = L.transaction) : LaneAgrees forms M :=
  h.of_subset (by rw [Lane.entries, hs]; exact List.Subset.refl _) (by rw [ho]; exact List.Subset.refl _)
    (by rw [ht, hs]; exact h.call)

/-- A transaction begins, or goes on. -/
theorem LaneAgrees.calling (h : LaneAgrees forms L) {t : Transaction} (hs : M.schedules = L.schedules) (ho : M.oneShots ⊆ L.oneShots)
    (ht : M.transaction = some t) (hc : CallAgrees forms L.schedules.active t) : LaneAgrees forms M := by
  refine h.of_subset (by rw [Lane.entries, hs]; exact List.Subset.refl _) ho fun t' ht' => ?_
  rw [ht] at ht'
  cases ht'
  rwa [hs]

/-- A transaction goes on with the same slot, source, kind and header. -/
theorem CallAgrees.goesOn {active : List Entry} {t t' : Transaction} (h : CallAgrees forms active t) (hslot : t'.slot = t.slot)
    (hsource : t'.source = t.source) (hkind : t'.kind = t.kind) (hheader : t'.header = t.header) : CallAgrees forms active t' := by
  obtain ⟨kind, sleep, entry, header⟩ := h
  constructor <;> simpa only [hslot, hsource, hkind, hheader]

theorem Lane.swapped_eq (L : Lane) : L.swapped.builder = L.schedules.builder ∧ (L.swapped = L.schedules
    ∨ L.swapped.staged = none ∧ L.schedules.staged = some L.swapped.active) := by
  unfold Lane.swapped
  split
  · exact ⟨rfl, .inl rfl⟩
  · exact ⟨rfl, .inr ⟨rfl, ‹_›⟩⟩

/-- A swap between transactions (R85). -/
theorem LaneAgrees.swapped (h : LaneAgrees forms L) (hs : M.schedules = L.swapped) (ho : M.oneShots = L.oneShots)
    (ht : M.transaction = none) : LaneAgrees forms M := by
  refine h.of_subset ?_ (by rw [ho]; exact List.Subset.refl _) (by simp [ht])
  obtain ⟨builder, same | ⟨staged, active⟩⟩ := L.swapped_eq
  · simp [Lane.entries, hs, same]
  · intro e he
    simp only [Lane.entries, hs, builder, staged, Option.getD_none, List.append_nil, List.mem_append] at he
    simp only [Lane.entries, active, Option.getD_some, List.mem_append]
    tauto

/-- A lane engine that agrees names no slot whose form it relies on other than through the forms of the slots that it names. -/
theorem LaneAgrees.congr_forms {forms' : SlotId → Form} (h : LaneAgrees forms L)
    (he : ∀ e ∈ L.entries, forms' e.slot = forms e.slot) (ho : ∀ o ∈ L.oneShots, forms' o.slot = forms o.slot)
    (ht : ∀ t, L.transaction = some t → forms' t.slot = forms t.slot) : LaneAgrees forms' L where
  entries e hm := by rw [he e hm]; exact h.entries e hm
  oneShots o hm := by rw [ho o hm]; exact h.oneShots o hm
  call t hm := by
    obtain ⟨kind, sleep, entry, header⟩ := h.call t hm
    constructor <;> simpa only [ht t hm]

end

/-! ## A change of slot records -/

/-- Records keep their forms, so that everything that names a slot still agrees. -/
theorem TablesWf.of_forms (w : TablesWf s) (forms : ∀ r, (t.slot r).form = (s.slot r).form) (lanes : t.lanes = s.lanes)
    (routes : t.routes = s.routes) (sleep : ∀ l, ∃ o, t.slot ⟨l, 0⟩ = sleepSlot o) (records : ∀ r, RecordWf (t.slot r))
    (flag : ∀ r p, RouteFed s r → t.slot r = .published p → p.failsafeActive = false) : TablesWf t := by
  have route (i : Fin 16) : t.route i = s.route i := State.route_of_routes routes i
  have lane (l : LaneId) : t.lane l = s.lane l := by simp only [State.lane, lanes]
  have same (l : LaneId) : t.forms l = s.forms l := funext fun k => forms ⟨l, k⟩
  refine RecordsWf.tablesWf ⟨sleep, records, ⟨?_, fun i x hx => ?_, ?_⟩⟩ fun l => ?_
  · simpa only [route] using w.routes.user
  · rw [route] at hx
    obtain ⟨p, held, -, rule⟩ := w.routes.ends i x hx
    obtain ⟨p', held', length⟩ := SlotRecord.form_eq_published ((forms x.dst).trans (congrArg SlotRecord.form held))
    refine ⟨p', held', flag x.dst p' ⟨i, x, hx, rfl⟩ held', ?_⟩
    rw [← SlotRecord.lengthRule_form, forms, SlotRecord.lengthRule_form, rule, length]
  · simpa only [route] using w.routes.single
  · rw [lane, same]
    exact w.laneAgrees l

theorem TablesWf.setSlot (w : TablesWf s) (form : x.form = (s.slot ref).form) (sleep : ref.slot = 0 → ∃ o, x = sleepSlot o)
    (record : RecordWf x) (flag : ∀ p, RouteFed s ref → x = .published p → p.failsafeActive = false) : TablesWf (s.setSlot ref x) := by
  have fed : ∀ r p, RouteFed s r → s.slot r = .published p → p.failsafeActive = false := by
    rintro _ p ⟨i, y, hy, rfl⟩ hp
    obtain ⟨p', hp', active, -⟩ := w.routes.ends i y hy
    rw [hp] at hp'
    cases hp'
    exact active
  refine w.of_forms (fun r => ?_) rfl rfl (fun l => ?_) (fun r => ?_) fun r p hr => ?_ <;> rw [State.slot_setSlot] <;> split
  · subst r; exact form
  · rfl
  · exact sleep (by subst ref; rfl)
  · exact w.sleep l
  · exact record
  · exact w.records r
  · subst r; exact flag p hr
  · exact fed r p hr

/-- The record of a slot that gives a length rule keeps it. -/
theorem TablesWf.setCalled (w : TablesWf s) {rule : LengthRule} (held : (s.slot ref).lengthRule = some rule)
    (form : x.form = (s.slot ref).form) (record : RecordWf x) : TablesWf (s.setSlot ref x) := by
  have called : x.lengthRule = some rule := by rw [← SlotRecord.lengthRule_form, form, SlotRecord.lengthRule_form, held]
  refine w.setSlot form (fun h0 => ?_) record fun p _ hp => by simp [hp, SlotRecord.lengthRule] at called
  obtain ⟨o, ho⟩ := w.sleep ref.lane
  rw [show ref = ⟨ref.lane, 0⟩ by rw [← h0], ho] at held
  cases held

/-- The record of a published slot of 1 to 31 keeps its length. -/
theorem TablesWf.setPublished (w : TablesWf s) {p p' : PublishedRec} (held : s.slot ref = .published p) (user : ref.slot ≠ 0)
    (length : p'.length = p.length) (record : RecordWf (.published p')) (flag : RouteFed s ref → p'.failsafeActive = false) :
    TablesWf (s.setSlot ref (.published p')) :=
  w.setSlot (by simp only [held, SlotRecord.form, length]) (fun h0 => absurd h0 user) record
    fun q fed hq => by cases hq; exact flag fed

/-- A slot of 1 to 31 that nothing names may take any record (R5, R6). -/
theorem TablesWf.redefine (w : TablesWf s) (user : ref.slot ≠ 0) (unnamed : ¬ Referenced s ref) (record : RecordWf x) :
    TablesWf (s.setSlot ref x) := by
  have other {q : SlotRef} (h : q ≠ ref) : (s.setSlot ref x).slot q = s.slot q := s.slot_setSlot_of_ne x h
  simp only [Referenced, not_or, not_exists, not_and] at unnamed
  obtain ⟨noEntry, noRoute, noOneShot, noCall⟩ := unnamed
  refine RecordsWf.tablesWf ⟨fun l => ?_, fun r => ?_, w.routes.user, fun i y hy => ?_, w.routes.single⟩ fun l => ?_
  · rw [other fun h => user (by rw [← h])]
    exact w.sleep l
  · rw [State.slot_setSlot]
    split
    · exact record
    · exact w.records r
  · obtain ⟨noSource, noDestination⟩ := noRoute i y hy
    rw [other noDestination, other noSource]
    exact w.routes.ends i y hy
  · have agrees := w.laneAgrees l
    have same {k : SlotId} (h : ref.lane = l → k ≠ ref.slot) : (s.setSlot ref x).forms l k = s.forms l k :=
      congrArg SlotRecord.form (other fun e => h (by rw [← e]) (by rw [← e]))
    refine agrees.congr_forms (fun e he => same ?_) (fun o ho => same ?_) fun t ht => same ?_
    · rintro rfl; exact noEntry e he
    · rintro rfl; exact noOneShot o ho
    · rintro rfl heq
      obtain ⟨-, sleep, entry, -⟩ := agrees.call t ht
      cases hsource : t.source with
      | oneShot => exact noCall t ht hsource heq
      | sleepCall => exact user (heq ▸ sleep.mp hsource)
      | scheduled | followUp =>
        obtain ⟨e, he, hslot⟩ := entry (by simp [hsource])
        exact noEntry e (List.mem_append_right _ he) (hslot.trans heq)

end Sys2Proof.Machine
end

section
/-!
What a lane engine does keeps the tables in agreement: the choice, the changes of condition, and the ending of a transaction
(R8 to R16, R53, R79 to R90, R111, R116 to R131).
-/

namespace Sys2Proof.Machine

open Sys2Proof

variable {l : LaneId} {s u : State} {t : Transaction} {o : TxOutcome} {ref : SlotRef}

/-! ## Beginning a transaction -/

theorem TablesWf.begin (w : TablesWf s) (h : CallAgrees (s.forms l) (s.lane l).schedules.active t) : TablesWf (s.begin l t) :=
  w.onLane ((w.laneAgrees l).calling rfl (List.Subset.refl _) rfl h)

/-- The sleep call is of the sleep slot, which is published (R2, R45). -/
theorem TablesWf.beginSleepCall (w : TablesWf s) : TablesWf (beginSleepCall l s) := by
  obtain ⟨o, ho⟩ := w.sleep l
  have kind : (s.forms l 0).callKind = some .published := (SlotRecord.callKind_form _).trans (by rw [ho]; rfl)
  exact w.begin ⟨kind, by simp [Transaction.begin], by simp [Transaction.begin], nofun⟩

/-- A one-shot is begun on the kind of its slot, which is defined (R92, R96). -/
theorem TablesWf.beginOneShot (w : TablesWf s) (l : LaneId) : TablesWf (beginOneShot l s) := by
  unfold Machine.beginOneShot
  split
  · exact w
  · rename_i o rest queue
    have agrees := w.laneAgrees l
    have queued : rest ⊆ (s.lane l).oneShots := by rw [queue]; exact List.subset_cons_self o rest
    obtain ⟨user, carries⟩ := agrees.oneShots o (by rw [queue]; exact List.mem_cons_self)
    have kind : ∃ k, (s.forms l o.slot).callKind = some k := by
      cases hf : s.forms l o.slot with
      | undefined => rw [hf] at carries; cases carries
      | polled | contended | published => exact ⟨_, rfl⟩
    obtain ⟨k, hk⟩ := kind
    have dequeued : TablesWf (s.onLane l fun L =>
        { L with oneShots := rest, round := { L.round with pause := none, streak := bump 2 L.round.streak } }) :=
      w.onLane (agrees.of_subset (List.Subset.refl _) queued agrees.call)
    refine dequeued.begin ⟨?_, by simp [Transaction.begin, user], by simp [Transaction.begin], nofun⟩
    have held : (s.slot ⟨l, o.slot⟩).callKind = some k := (SlotRecord.callKind_form _).symm.trans hk
    simp only [Transaction.begin, held, Option.getD_some]
    exact hk

/-- A scheduled transaction is begun on the kind of the slot of its entry (R47). -/
theorem TablesWf.beginScheduled (w : TablesWf s) {e : Entry} (he : e ∈ (s.lane l).schedules.active) {kind : CallKind}
    (hk : (s.slot ⟨l, e.slot⟩).callKind = some kind) (allowance : Option Nat) :
    TablesWf (beginScheduled l e.slot kind allowance s) := by
  have agrees := w.laneAgrees l
  have restarted : TablesWf (s.onLane l fun L => { L with round := { L.round with streak := 0 } }) :=
    w.onLane (agrees.of_same rfl rfl rfl)
  refine restarted.begin ⟨(SlotRecord.callKind_form _).trans hk, ?_, fun _ => ⟨e, ?_, rfl⟩, nofun⟩
  · simp [Transaction.begin, (agrees.entries e (List.mem_append_right _ he)).1]
  · rwa [State.lane_onLane_self]

/-! ## The choice (R87) -/

/-- A skip count stays below the probe interval (R14). -/
theorem TablesWf.skip (w : TablesWf s) {k : SlotId} {r : PolledRec} (hr : s.slot ⟨l, k⟩ = .polled r) (absent : r.presence = .absent)
    (count : r.skipCount + 1 ≤ 31) : TablesWf (s.setSlot ⟨l, k⟩ (.polled { r with skipCount := r.skipCount + 1 })) := by
  have record := hr ▸ w.records ⟨l, k⟩
  obtain ⟨bound, low, high, misses, -, data, presence, -⟩ := record
  exact w.setCalled (rule := r.rule) (by rw [hr]; rfl) (by rw [hr]; rfl)
    ⟨bound, low, high, misses, count, data, presence, fun h => by simp [absent] at h⟩

theorem TablesWf.considerEntries (w : TablesWf s) {es : List Entry} (hes : es ⊆ (s.lane l).schedules.active)
    (probe : (s.lane l).config.probeInterval ≤ 32) : TablesWf (considerEntries l es s) := by
  induction es generalizing s with
  | nil => exact w
  | cons e rest ih =>
    obtain ⟨he, hrest⟩ := List.cons_subset.mp hes
    have moved : TablesWf (advancePosition l s) := w.onLane ((w.laneAgrees l).of_same rfl rfl rfl)
    have lane : (advancePosition l s).lane l = (s.lane l).advanced := s.lane_onLane_self ..
    have passes {v : State} (wv : TablesWf v) (hv : v.lane l = (s.lane l).advanced) : TablesWf (Machine.considerEntries l rest v) :=
      ih wv (by rw [hv]; exact hrest) (by rw [hv]; exact probe)
    have begins {kind : CallKind} (hk : (s.slot ⟨l, e.slot⟩).callKind = some kind) (allowance : Option Nat) :
        TablesWf (Machine.beginScheduled l e.slot kind allowance (advancePosition l s)) :=
      moved.beginScheduled (by rw [lane]; exact he) hk allowance
    unfold Machine.considerEntries
    split
    · split
      case h_1 => exact passes moved lane
      case h_2 r hr =>
        exact tablesWf_ite (fun ⟨absent, count⟩ => passes (moved.skip hr absent (by omega)) lane) fun _ => begins (by rw [hr]; rfl) _
      case h_3 r hr => exact begins (by rw [hr]; rfl) _
      case h_4 p hp => exact tablesWf_ite (fun _ => passes moved lane) fun _ => begins (by rw [hp]; rfl) _
    · exact passes moved lane

/-- A swap between transactions (R84, R85). -/
theorem TablesWf.swapStaged (w : TablesWf s) (ht : (s.lane l).transaction = none) : TablesWf (swapStaged l s) := by
  rw [swapStaged_eq rfl]
  refine w.setLane ?_ _
  exact (w.laneAgrees l).swapped rfl rfl ht

theorem TablesWf.endRound (w : TablesWf s) (ht : (s.lane l).transaction = none) : TablesWf (endRound l s) := by
  rw [endRound_eq rfl]
  refine w.setLane ?_ _
  exact (w.laneAgrees l).swapped rfl rfl ht

theorem TablesWf.chooseIn (w : TablesWf s) (probe : (s.lane l).config.probeInterval ≤ 32) (rounds : Nat) :
    TablesWf (chooseIn rounds l s) := by
  induction rounds generalizing s with
  | zero => exact w
  | succ n ih =>
    rw [chooseIn_succ rfl]
    refine tablesWf_ite (fun _ => w.beginOneShot l) fun _ => ?_
    have considered : TablesWf (if (s.lane l).round.pause.isNone then
        Machine.considerEntries l ((s.lane l).schedules.active.drop (s.lane l).round.position) s else s) :=
      tablesWf_ite (fun _ => w.considerEntries (List.drop_subset ..) probe) fun _ => w
    have config : ((if (s.lane l).round.pause.isNone then
        Machine.considerEntries l ((s.lane l).schedules.active.drop (s.lane l).round.position) s else s).lane l).config
          = (s.lane l).config := by
      split
      · exact (OnlyLane.considerEntries ..).config
      · rfl
    generalize (if (s.lane l).round.pause.isNone then
        Machine.considerEntries l ((s.lane l).schedules.active.drop (s.lane l).round.position) s else s) = v at considered config
    refine tablesWf_ite (fun _ => considered) fun idle => tablesWf_ite (fun _ => considered.beginOneShot l) fun _ =>
      tablesWf_ite (fun _ => ih (considered.endRound (by simpa [State.busy] using idle)) ?_) fun _ => considered
    rwa [(OnlyLane.endRound l v).config, config]

theorem TablesWf.choose (w : TablesWf s) (probe : (s.lane l).config.probeInterval ≤ 32) : TablesWf (choose l s) := w.chooseIn probe 3

/-! ## Changes of condition -/

theorem TablesWf.changeCondition (w : TablesWf s) (c : Condition) (cause : Cause) : TablesWf (changeCondition l c cause s) :=
  (w.onLane ((w.laneAgrees l).of_same rfl rfl rfl)).report _

theorem TablesWf.enterRunning (w : TablesWf s) (ht : (s.lane l).transaction = none) (probe : (s.lane l).config.probeInterval ≤ 32)
    (cause : Cause) : TablesWf (enterRunning l cause s) := by
  rw [enterRunning_eq rfl]
  refine TablesWf.choose (w.setLane ?_ _) (by rw [State.lane_setLane_reports]; exact probe)
  exact (w.laneAgrees l).swapped rfl rfl ht

theorem TablesWf.enterHalted (w : TablesWf s) (ht : (s.lane l).transaction = none) (cause : Cause) : TablesWf (enterHalted l cause s) := by
  rw [enterHalted_eq rfl]
  refine w.setLane ?_ _
  exact (w.laneAgrees l).swapped rfl rfl ht

theorem TablesWf.enterResume (w : TablesWf s) (ht : (s.lane l).transaction = none) (probe : (s.lane l).config.probeInterval ≤ 32)
    (cause : Cause) : TablesWf (enterResume l cause s) := by
  unfold Machine.enterResume
  split
  · exact w.enterRunning ht probe cause
  · exact w.enterHalted ht cause

theorem TablesWf.completeQueued (w : TablesWf s) (outcome : Completion) : TablesWf (completeQueued l outcome s) := by
  rw [completeQueued_eq outcome rfl]
  have agrees := w.laneAgrees l
  refine w.setLane ?_ _
  exact agrees.of_subset (List.Subset.refl _) (List.nil_subset _) agrees.call

theorem TablesWf.enterFaulted (w : TablesWf s) (cause : Cause) : TablesWf (enterFaulted l cause s) := by
  rw [enterFaulted_eq cause rfl]
  have agrees := w.laneAgrees l
  refine w.setLane ?_ _
  exact agrees.of_subset (List.Subset.refl _) (List.nil_subset _) agrees.call

theorem TablesWf.leaveFaulted (w : TablesWf s) (ht : (s.lane l).transaction = none) (probe : (s.lane l).config.probeInterval ≤ 32) :
    TablesWf (leaveFaulted l s) := by
  have left : TablesWf (s.onLane l fun L => { L with recoveryArmed := false, line := { L.line with drainOwed := false } }) :=
    w.onLane ((w.laneAgrees l).of_same rfl rfl rfl)
  exact left.enterResume (by rw [State.lane_onLane_self]; exact ht) (by rw [State.lane_onLane_self]; exact probe) _

/-! ## The Slot Table at an ending -/

/-- A route copies data that its source's rule admits, which is data of its destination's length (R106, R111). -/
theorem TablesWf.copyRoute (w : TablesWf s) {i : Fin 16} {y : Route} (hy : s.route i = some y) {data : List Byte}
    (hd : ∀ rule, (s.slot y.src).lengthRule = some rule → rule.admits data.length = true) : TablesWf (copyRoute data s y) := by
  unfold Machine.copyRoute
  split
  case h_2 => exact w
  case h_1 p hp =>
    refine tablesWf_ite (fun _ => ?_) fun _ => w
    obtain ⟨p', hp', active, rule⟩ := w.routes.ends i y hy
    rw [hp] at hp'
    cases hp'
    have length : data.length = p.length := by simpa [LengthRule.admits] using hd _ rule
    have record := hp ▸ w.records y.dst
    obtain ⟨bound, -, failsafe, held⟩ := record
    refine w.setPublished hp (w.routes.user i y hy).2 rfl ⟨bound, ?_, failsafe, held⟩ fun _ => active
    rintro _ ⟨⟩
    exact length

theorem form_copyRoute (data : List Byte) (s : State) (y : Route) (q : SlotRef) :
    ((copyRoute data s y).slot q).form = (s.slot q).form := by
  rw [slot_copyRoute]
  split
  · cases s.slot q with
    | published p => simp only [SlotRecord.fed, SlotRecord.form]; split <;> rfl
    | undefined | polled | contended => rfl
  · rfl

theorem TablesWf.feedRoutes (w : TablesWf s) {data : List Byte}
    (hd : ∀ rule, (s.slot ref).lengthRule = some rule → rule.admits data.length = true) : TablesWf (feedRoutes ref data s) := by
  have fed : TablesWf (Machine.feedRoutes ref data s) ∧ (Machine.feedRoutes ref data s).routes = s.routes
      ∧ ((Machine.feedRoutes ref data s).slot ref).form = (s.slot ref).form := by
    refine List.foldlRecOn (motive := fun v : State => TablesWf v ∧ v.routes = s.routes ∧ (v.slot ref).form = (s.slot ref).form)
      _ _ ⟨w, rfl, rfl⟩ fun v ⟨wv, routes, form⟩ y hy => ?_
    obtain ⟨held, hsrc⟩ := List.mem_filter.mp hy
    obtain ⟨i, hi⟩ := (s.mem_routeList y).mp held
    refine ⟨wv.copyRoute ((State.route_of_routes routes i).trans hi) ?_, (SlotsOnly.copyRoute data v y).routes.trans routes,
      (form_copyRoute ..).trans form⟩
    rw [of_decide_eq_true hsrc, ← SlotRecord.lengthRule_form, form, SlotRecord.lengthRule_form]
    exact hd
  exact fed.1

theorem TablesWf.report_ite {p : Prop} [Decidable p] (w : TablesWf s) (y : Report) : TablesWf (if p then s.report y else s) :=
  tablesWf_ite (fun _ => w.report y) fun _ => w

theorem slots_report_ite (p : Prop) [Decidable p] (s : State) (y : Report) : (if p then s.report y else s).slots = s.slots := by
  split <;> rfl

/-- The routes are fed from a record that has been settled (R9). -/
theorem TablesWf.feedRoutes_settled {x : SlotRecord} {rule : LengthRule} {data : List Byte} (w : TablesWf u)
    (slots : u.slots = (s.setSlot ref x).slots) (held : x.lengthRule = some rule) (admitted : rule.admits data.length = true) :
    TablesWf (Machine.feedRoutes ref data u) := by
  refine w.feedRoutes fun rule' hrule => ?_
  rw [State.slot_of_slots slots, State.slot_setSlot_self, held] at hrule
  cases hrule
  exact admitted

/-- What a DONE delivers is of a length that the rule of the slot admits. -/
def Fits (s : State) (ref : SlotRef) (o : TxOutcome) (data : List Byte) : Prop :=
  o = .done → ∀ rule, (s.slot ref).lengthRule = some rule → rule.admits data.length = true

/-- A polled record after a miss (R12, R14). -/
def PolledRec.missed (r : PolledRec) : PolledRec :=
  if r.presence = .present ∧ bump 15 r.missCount < r.absenceLimit then { r with missCount := bump 15 r.missCount }
  else { r with missCount := bump 15 r.missCount, presence := .absent, skipCount := 0 }

theorem PolledRec.rule_missed (r : PolledRec) : r.missed.rule = r.rule := by unfold PolledRec.missed; split <;> rfl

theorem Presence.eq_absent {p : Presence} (h : p ≠ .present) : p = .absent := by cases p <;> simp_all

/-- A miss sets the record, and is reported where it makes the slot ABSENT (R12). -/
theorem missPolled_eq (ref : SlotRef) (r : PolledRec) (s : State) : missPolled ref r s =
    if r.presence = .present ∧ r.absenceLimit ≤ bump 15 r.missCount then
      (s.setSlot ref (.polled r.missed)).report (.slotPresence ref .absent)
    else s.setSlot ref (.polled r.missed) := by
  unfold missPolled PolledRec.missed
  by_cases hp : r.presence = .present
  · by_cases hm : r.absenceLimit ≤ bump 15 r.missCount
    · simp only [hp, hm, Nat.not_lt.mpr hm, if_true, and_self, and_false, if_false]
    · simp only [hp, hm, Nat.lt_of_not_le hm, if_true, and_self, and_false, if_false]
  · have absent := Presence.eq_absent hp
    simp only [absent, reduceCtorEq, false_and, if_false]

theorem RecordWf.missed {r : PolledRec} (h : RecordWf (.polled r)) : RecordWf (.polled r.missed) := by
  obtain ⟨bound, low, high, misses, skips, data, presence, present⟩ := h
  unfold PolledRec.missed
  split
  · rename_i hp
    exact ⟨bound, low, high, Nat.min_le_right .., skips, data, by simp [hp.1, hp.2], present⟩
  · rename_i hp
    refine ⟨bound, low, high, Nat.min_le_right .., Nat.zero_le _, data, ?_, nofun⟩
    simp only [true_iff]
    by_cases h : r.presence = .present
    · exact Nat.not_lt.mp fun hm => hp ⟨h, hm⟩
    · exact le_min (Nat.le_succ_of_le (presence.mp (Presence.eq_absent h))) high

theorem TablesWf.endPolled (w : TablesWf s) {r : PolledRec} (hr : s.slot ref = .polled r) {d : Delivery} (hd : Fits s ref o d.data) :
    TablesWf (endPolled ref { r with lastOutcome := some o } o d s) := by
  have record := hr ▸ w.records ref
  obtain ⟨bound, low, high, misses, skips, data, presence, present⟩ := record
  have set (r' : PolledRec) (rule : r'.rule = r.rule) (record : RecordWf (.polled r')) : TablesWf (s.setSlot ref (.polled r')) :=
    w.setCalled (rule := r.rule) (by rw [hr]; rfl) (by simp only [hr, SlotRecord.form, rule]) record
  unfold Machine.endPolled
  split
  · have admitted := hd rfl r.rule (by rw [hr]; rfl)
    have accepted : TablesWf (s.setSlot ref (.polled (PolledRec.accept { r with lastOutcome := some .done } d))) :=
      set _ rfl ⟨bound, low, high, Nat.zero_le _, Nat.zero_le _, by rintro _ ⟨⟩; exact admitted,
        by simp only [PolledRec.accept, reduceCtorEq, false_iff]; omega, fun _ => rfl⟩
    simp only [acceptPolled]
    refine TablesWf.feedRoutes_settled ?_ ((slots_report_ite ..).trans (slots_report_ite ..)) rfl admitted
    exact (accepted.report_ite _).report_ite _
  · rw [missPolled_eq]
    have missed : TablesWf (s.setSlot ref (.polled (PolledRec.missed { r with lastOutcome := some .noResponse }))) :=
      set _ (PolledRec.rule_missed _) (RecordWf.missed ⟨bound, low, high, misses, skips, data, presence, present⟩)
    exact missed.report_ite _
  · refine set _ rfl ⟨bound, low, high, misses, ?_, data, presence, fun h => ?_⟩
    · simp only
      split
      · exact Nat.zero_le _
      · exact skips
    · have h : r.presence = .present := h
      simp [h, present h]

theorem TablesWf.endContended (w : TablesWf s) {r : ContendedRec} (hr : s.slot ref = .contended r) {d : Delivery}
    (hd : Fits s ref o d.data) (backlog : Bool) :
    TablesWf (endContended ref { r with lastOutcome := some o } o d backlog s) := by
  have record := hr ▸ w.records ref
  obtain ⟨bound, budget, data⟩ := record
  have set (r' : ContendedRec) (rule : r'.rule = r.rule) (record : RecordWf (.contended r')) :
      TablesWf (s.setSlot ref (.contended r')) :=
    w.setCalled (rule := r.rule) (by rw [hr]; rfl) (by simp only [hr, SlotRecord.form, rule]) record
  unfold Machine.endContended
  split
  · have admitted := hd rfl r.rule (by rw [hr]; rfl)
    have accepted : TablesWf (s.setSlot ref (.contended (ContendedRec.accept { r with lastOutcome := some .done } d backlog))) :=
      set _ rfl ⟨bound, budget, by rintro _ ⟨⟩; exact admitted⟩
    simp only [acceptContended]
    exact TablesWf.feedRoutes_settled (accepted.report_ite _) (slots_report_ite ..) rfl admitted
  · exact set _ rfl ⟨bound, budget, data⟩

/-- The Slot Table takes an ending whose data fits (R8). -/
theorem TablesWf.takeEnding (w : TablesWf s) {d : Delivery} (hd : Fits s ref o d.data) (p : PendingResult) (followUp : Bool) :
    TablesWf (takeEnding ref o d p followUp s) := by
  unfold Machine.takeEnding
  split
  case h_1 => exact w
  case h_2 r hr => exact w.endPolled hr hd
  case h_3 r hr => exact w.endContended hr hd _
  case h_4 p hp =>
    have record := hp ▸ w.records ref
    refine w.setSlot (by rw [hp]; rfl) (fun h0 => ?_) record fun q fed hq => ?_
    · obtain ⟨o', ho'⟩ := w.sleep ref.lane
      rw [show ref = ⟨ref.lane, 0⟩ by rw [← h0], ho'] at hp
      cases hp
      exact ⟨some o, rfl⟩
    · cases hq
      obtain ⟨i, y, hy, rfl⟩ := fed
      obtain ⟨q, hq, active, -⟩ := w.routes.ends i y hy
      rw [hp] at hq
      cases hq
      exact active

/-! ## The ending of a transaction -/

/-- A transaction holds the whole of the data that its header announced, or sends data of its own. -/
def Transaction.Whole (t : Transaction) : Prop := t.kind = .published ∨ ∃ h, t.header = some h ∧ t.data.length = h.length

/-- Data that is whole fits, since its header was admitted by the rule of the slot (R36, R46). -/
theorem CallAgrees.fits (h : CallAgrees (s.forms l) (s.lane l).schedules.active t) (whole : o = .done → t.Whole) :
    Fits s ⟨l, t.slot⟩ o t.data := by
  intro done rule hrule
  have form : (s.forms l t.slot).lengthRule = some rule := (SlotRecord.lengthRule_form _).trans hrule
  rcases whole done with published | ⟨hd, hheader, hlength⟩
  · have kind := h.kind
    cases hf : s.forms l t.slot <;> simp [hf, published, Form.callKind, Form.lengthRule] at kind form
  · obtain ⟨rule', form', admits⟩ := h.header hd hheader
    rw [form] at form'
    cases form'
    rwa [hlength]

theorem TablesWf.captureFault (w : TablesWf s) (o : TxOutcome) (slot : SlotId) (cell bit : Nat) :
    TablesWf (captureFault l o slot cell bit s) := by
  refine tablesWf_ite (fun _ => ?_) fun _ => w
  split
  · exact (w.onLane ((w.laneAgrees l).of_same rfl rfl rfl)).report _
  · exact w.onLane ((w.laneAgrees l).of_same rfl rfl rfl)

theorem TablesWf.completeOneShot (w : TablesWf s) (l : LaneId) (t : Transaction) (o : TxOutcome) : TablesWf (completeOneShot l t o s) := by
  unfold Machine.completeOneShot
  split
  · exact w
  · exact tablesWf_ite (fun _ => w.report _) fun _ => w.report _

/-- A transaction record removed still agrees with what it leaves. -/
theorem TablesWf.removed (w : TablesWf s) (ht : (s.lane l).transaction = some t) :
    let u := markWorked l (s.onLane l fun L => { L with transaction := none })
    TablesWf u ∧ CallAgrees (u.forms l) (u.lane l).schedules.active t := by
  have agrees := w.laneAgrees l
  have removed : TablesWf (s.onLane l fun L => { L with transaction := none }) :=
    w.onLane (agrees.of_subset (List.Subset.refl _) (List.Subset.refl _) (by simp))
  have worked := removed.laneAgrees l
  refine ⟨removed.onLane ?_, ?_⟩
  · split
    · exact worked.of_same rfl rfl rfl
    · exact worked
  · rw [State.lane_markWorked, State.lane_onLane_self]
    exact agrees.call t ht

/-- The stages of an ending keep the agreement, and the record removed still agrees with what they leave (R53). -/
theorem TablesWf.endingStages (w : TablesWf s) (ht : (s.lane l).transaction = some t) (whole : o = .done → t.Whole) (cell bit : Nat) :
    TablesWf (Machine.endingStages l t o cell bit s) ∧ CallAgrees ((Machine.endingStages l t o cell bit s).forms l)
      ((Machine.endingStages l t o cell bit s).lane l).schedules.active t := by
  have settled : TablesWf (settleLine l o s) := w.onLane ((w.laneAgrees l).of_same rfl rfl rfl)
  have fits : Fits (settleLine l o s) ⟨l, t.slot⟩ o t.delivery.data := ((w.laneAgrees l).call t ht).fits whole
  have taken := settled.takeEnding fits t.pendingResult (t.followsUp o)
  have lane := State.lane_takeEnding (settleLine l o s) l ⟨l, t.slot⟩ o t.delivery t.pendingResult (t.followsUp o)
  unfold Machine.endingStages
  generalize Machine.takeEnding ⟨l, t.slot⟩ o t.delivery t.pendingResult (t.followsUp o) (settleLine l o s) = v at taken lane
  have counted : TablesWf (countEnding l o v) := taken.onLane ((taken.laneAgrees l).of_same rfl rfl rfl)
  refine TablesWf.removed ((counted.captureFault o t.slot cell bit).completeOneShot l t o) ?_
  simp only [State.lane_completeOneShot, State.lane_captureFault, countEnding, State.lane_onLane_self, lane, settleLine]
  exact ht

/-- What the condition of a lane makes of an ending keeps the agreement (R53). -/
theorem TablesWf.afterEnding (w : TablesWf s) (ht : (s.lane l).transaction = none) (probe : (s.lane l).config.probeInterval ≤ 32)
    (call : CallAgrees (s.forms l) (s.lane l).schedules.active t) : TablesWf (afterEnding l t o (t.followsUp o) s) := by
  refine tablesWf_ite (fun follows => ?_) fun _ => tablesWf_ite (fun _ => w.enterFaulted _) fun _ =>
    tablesWf_ite (fun _ => w.enterFaulted _) fun _ => ?_
  · obtain ⟨source, kind, -⟩ := (t.followsUp_iff o).mp follows
    have awake : t.slot ≠ 0 := fun h0 => by simp [call.sleep.mpr h0] at source
    exact w.begin ⟨call.kind.trans (congrArg some kind), by simp [Transaction.begin, awake], fun _ => call.entry source, nofun⟩
  · split
    · refine TablesWf.choose (tablesWf_ite (fun _ => w.swapStaged ht) fun _ => w) ?_
      rwa [(OnlyLane.swapIfEmpty l s).config]
    · rw [enterHalted_resetRound rfl]
      refine w.setLane ?_ _
      exact (w.laneAgrees l).swapped rfl rfl ht
    · exact tablesWf_ite (fun _ => w) fun _ => w.beginSleepCall
    all_goals exact w

/-- The ending of a transaction keeps the agreement, where a DONE has come with the whole of its data. -/
theorem TablesWf.endTransaction (w : TablesWf s) (ht : (s.lane l).transaction = some t) (probe : (s.lane l).config.probeInterval ≤ 32)
    (whole : o = .done → t.Whole) (cell bit : Nat) : TablesWf (endTransaction l o cell bit s) := by
  rw [endTransaction_eq_afterEnding ht]
  obtain ⟨stages, call⟩ := w.endingStages ht whole cell bit
  refine stages.afterEnding ?_ ?_ call <;> rw [lane_endingStages]
  · rfl
  · exact probe

end Sys2Proof.Machine
end

section
/-!
Every event of a lane keeps the tables in agreement, and none faults: a header is checked against the rule of the slot that the transaction
in progress calls, which a slot that responders answer has (R26 to R55, R115 to R129, log entry 21).
-/

namespace Sys2Proof.Machine

open Sys2Proof

variable {l : LaneId} {s : State} {t : Transaction} {P : State → Prop}

/-! ## Outcomes that are no faults -/

/-- An outcome is no fault, and every next state that it answers satisfies `P`. -/
inductive Safely (P : State → Prop) : Host.Outcome State Fault Refusal → Prop where
  | next {s : State} : P s → Safely P (.next s)
  | refused (r : Refusal) : Safely P (.refused r)

theorem Safely.of_eq_next {r : Host.Outcome State Fault Refusal} (h : Safely P r) {t : State} (hr : r = .next t) : P t := by
  subst hr
  cases h
  assumption

theorem Safely.ne_fault {r : Host.Outcome State Fault Refusal} (h : Safely P r) (f : Fault) : r ≠ .fault f := by
  rintro rfl
  cases h

theorem safely_ite {p : Prop} [Decidable p] {a b : Host.Outcome State Fault Refusal} (ha : p → Safely P a) (hb : ¬ p → Safely P b) :
    Safely P (if p then a else b) := by
  split
  · exact ha ‹_›
  · exact hb ‹_›

theorem safely_inPhase {phase : Phase} {k : Transaction → Host.Outcome State Fault Refusal}
    (h : ∀ t, (s.lane l).transaction = some t → t.phase = phase → Safely P (k t)) : Safely P (inPhase l phase s k) := by
  unfold inPhase
  split
  · exact .refused _
  · exact safely_ite (h _ ‹_›) fun _ => .refused _

theorem safely_inCondition {c : Condition} {k : Host.Outcome State Fault Refusal} (h : (s.lane l).condition = c → Safely P k) :
    Safely P (inCondition l c s k) := safely_ite h fun _ => .refused _

theorem safely_inReleaseWait {k : Host.Outcome State Fault Refusal} (h : Safely P k) : Safely P (inReleaseWait l s k) :=
  safely_inCondition fun _ => safely_ite (fun _ => .refused _) fun _ => h

/-! ## A transaction in progress -/

/-- The tables agree while a transaction is in progress on a lane. -/
structure Calling (l : LaneId) (t : Transaction) (s : State) : Prop where
  tables : TablesWf s
  transaction : (s.lane l).transaction = some t
  wf : TransactionWf t
  probe : (s.lane l).config.probeInterval ≤ 32

theorem TablesWf.calling (w : TablesWf s) (h : LaneWf (s.lane l)) (ht : (s.lane l).transaction = some t) : Calling l t s :=
  ⟨w, ht, h.transaction t ht, h.config.probeInterval.2⟩

theorem TablesWf.onLine (w : TablesWf s) (f : LineState → LineState) : TablesWf (s.onLine l f) :=
  w.onLane ((w.laneAgrees l).of_same rfl rfl rfl)

namespace Calling

theorem call (h : Calling l t s) : CallAgrees (s.forms l) (s.lane l).schedules.active t := (h.tables.laneAgrees l).call t h.transaction

theorem onLane (h : Calling l t s) {f : Lane → Lane} (hs : (f (s.lane l)).schedules = (s.lane l).schedules)
    (ho : (f (s.lane l)).oneShots = (s.lane l).oneShots) (ht : (f (s.lane l)).transaction = (s.lane l).transaction)
    (hc : (f (s.lane l)).config = (s.lane l).config) : Calling l t (s.onLane l f) := by
  refine ⟨h.tables.onLane ((h.tables.laneAgrees l).of_same hs ho ht), ?_, h.wf, ?_⟩ <;> rw [State.lane_onLane_self]
  · rw [ht, h.transaction]
  · rw [hc]
    exact h.probe

theorem onLine (h : Calling l t s) (f : LineState → LineState) : Calling l t (s.onLine l f) := h.onLane rfl rfl rfl rfl

theorem ends (h : Calling l t s) {o : TxOutcome} (whole : o = .done → t.Whole) (cell bit : Nat) :
    TablesWf (endTransaction l o cell bit s) := h.tables.endTransaction h.transaction h.probe whole cell bit

theorem fails (h : Calling l t s) {o : TxOutcome} (ho : o ≠ .done) (cell bit : Nat) : TablesWf (endTransaction l o cell bit s) :=
  h.ends (fun done => absurd done ho) cell bit

theorem goesOn (h : Calling l t s) {f : Lane → Lane} {t' : Transaction} (hs : (f (s.lane l)).schedules = (s.lane l).schedules)
    (ho : (f (s.lane l)).oneShots = (s.lane l).oneShots) (ht : (f (s.lane l)).transaction = some t')
    (call : CallAgrees (s.forms l) (s.lane l).schedules.active t') : TablesWf (s.onLane l f) :=
  h.tables.onLane ((h.tables.laneAgrees l).calling hs (ho ▸ List.Subset.refl _) ht call)

/-! ## Bits sent -/

theorem completeCall (h : Calling l t s) : TablesWf (completeCall l t s) := by
  cases hk : t.kind <;> refine h.goesOn (t' := { t with phase := if t.kind = .published then .send else .await }) ?_ ?_ ?_
    (h.call.goesOn rfl rfl rfl rfl) <;> simp [hk]

theorem completePublish (h : Calling l t s) (hp : t.phase = .send) : TablesWf (completePublish l t s) :=
  (h.onLine _).ends (fun _ => .inl (h.wf.sends hp)) 0 0

theorem failReadback (h : Calling l t s) (i : Nat) : TablesWf (failReadback l t i s) := (h.onLine _).fails (by decide) ..

theorem readBack (h : Calling l t s) (dominant : Bool) :
    Safely TablesWf (readBack l t dominant s) := by
  unfold Machine.readBack
  simp only
  split
  · exact .refused _
  · refine safely_ite (fun _ => .next (h.failReadback _)) fun _ => ?_
    split
    · exact .next (h.tables.onLine _)
    · exact .next (tablesWf_ite (fun hs => h.completePublish hs) fun _ => h.completeCall)

/-! ## Cells received -/

theorem startCell (h : Calling l t s) : TablesWf (startCell l t s) := h.goesOn rfl rfl rfl (h.call.goesOn rfl rfl rfl rfl)

theorem takeTag (h : Calling l t s) (v : Byte) : Safely TablesWf (takeTag l t v s) := by
  unfold Machine.takeTag
  split
  · exact .next (h.fails (by decide) ..)
  · exact .next (h.goesOn rfl rfl rfl (h.call.goesOn rfl rfl rfl rfl))

/-- The slot of a transaction that awaits a response has a length rule (R3, R49). -/
theorem lengthRule (h : Calling l t s) (hp : t.phase = .receive) : ∃ rule, (s.forms l t.slot).lengthRule = some rule := by
  have kind := h.call.kind
  have answered := h.wf.answered (.inr hp)
  cases hf : s.forms l t.slot with
  | polled rule | contended rule => exact ⟨rule, rfl⟩
  | undefined => rw [hf] at kind; cases kind
  | published n => rw [hf] at kind; exact absurd (Option.some.inj kind).symm answered

theorem takeHeader (h : Calling l t s) (hp : t.phase = .receive) (v : Byte) : Safely TablesWf (takeHeader l t v s) := by
  unfold Machine.takeHeader
  split
  · exact .next (h.fails (by decide) ..)
  · rename_i length attention _
    obtain ⟨rule, held⟩ := h.lengthRule hp
    have slot : (s.slot ⟨l, t.slot⟩).lengthRule = some rule := (SlotRecord.lengthRule_form _).symm.trans held
    simp only [slot]
    refine safely_ite (fun admits => .next (h.goesOn rfl rfl rfl (t' := { t with header := some { length, attention } }) ?_)) fun _ =>
      .next (h.fails (by decide) ..)
    obtain ⟨kind, sleep, entry, -⟩ := h.call
    refine ⟨kind, sleep, entry, ?_⟩
    rintro _ ⟨⟩
    exact ⟨rule, held, admits⟩

theorem takeData (h : Calling l t s) (v : Byte) : Safely TablesWf (takeData l t v s) :=
  .next (h.goesOn rfl rfl rfl (h.call.goesOn rfl rfl rfl rfl))

/-- The check cell is awaited once the data has come whole. -/
theorem takeCheck (h : Calling l t s) (ha : t.awaitsCheck = true) (v : Byte) : Safely TablesWf (takeCheck l t v s) := by
  obtain ⟨-, hd, hh, hle⟩ := awaitsCheck_iff.mp ha
  have whole : t.Whole := .inr ⟨hd, hh, Nat.le_antisymm (h.wf.header hd hh).2.1 hle⟩
  exact safely_ite (fun _ => .next (h.goesOn rfl rfl rfl (h.call.goesOn rfl rfl rfl rfl))) fun _ => .next (h.ends (fun _ => whole) ..)

theorem takeAwaited (h : Calling l t s) (hp : t.phase = .receive) (v : Byte) : Safely TablesWf (takeAwaited l t v s) :=
  safely_ite (fun _ => h.takeTag v) fun htag => safely_ite (fun _ => h.takeHeader hp v) fun hheader =>
    safely_ite (fun _ => h.takeData v) fun hdata => h.takeCheck (awaitsCheck_of_not htag hheader hdata) v

theorem takeCell {check : LaneId → Transaction → Byte → State → Host.Outcome State Fault Refusal} (h : Calling l t s)
    (hcheck : ∀ v u, Calling l t u → Safely TablesWf (check l t v u)) (levels : BitVec 9) :
    Safely TablesWf (takeCell l t levels s check) :=
  safely_ite (fun _ => .next ((h.onLine _).fails (by decide) ..)) fun _ => hcheck _ _ (h.onLine _)

theorem takeBit (h : Calling l t s) (hp : t.phase = .receive) (bits : List Bool) (dominant : Bool) :
    Safely TablesWf (takeBit l t bits dominant s) :=
  safely_ite (fun _ => h.takeCell (fun v _ hu => hu.takeAwaited hp v) _) fun _ => .next (h.tables.onLine _)

/-- The pending window follows a check cell, behind the whole of the data (R39). -/
theorem endWindow (h : Calling l t s) (hp : t.phase = .window) (seen : Bool) : TablesWf (endWindow l t seen s) := by
  obtain ⟨-, header⟩ := h.wf.window hp
  obtain ⟨hd, hh⟩ := Option.isSome_iff_exists.mp header
  have whole : t.Whole := .inr ⟨hd, hh, (h.wf.header hd hh).2.2 hp⟩
  have sampled := h.goesOn (f := fun L =>
    { L with
      transaction := some { t with pendingResult := if seen then .seen else .notSeen }
      line := if seen then L.line.dominantBit else L.line.recessiveFor 1 }) rfl rfl rfl (h.call.goesOn rfl rfl rfl rfl)
  refine sampled.endTransaction (t := { t with pendingResult := if seen then .seen else .notSeen }) ?_ ?_ (fun _ => whole) ..
    <;> rw [State.lane_onLane_self]
  exact h.probe

end Calling

/-! ## Bit times that are counted -/

theorem TablesWf.countRecessive (w : TablesWf s) : TablesWf (countRecessive l s) := w.onLane ((w.laneAgrees l).of_same rfl rfl rfl)

theorem TablesWf.objectToSleep (w : TablesWf s) : TablesWf (objectToSleep l s) := (w.onLine _).changeCondition ..

theorem TablesWf.endResponderRun (w : TablesWf s) (run : Nat) : TablesWf (endResponderRun l run s) :=
  tablesWf_ite (fun _ => (w.onLine _).changeCondition ..) fun _ => w.onLine _

theorem TablesWf.raiseStuck (w : TablesWf s) (h : LaneWf (s.lane l)) : Safely TablesWf (raiseStuck l s) := by
  unfold Machine.raiseStuck
  split
  · rename_i t ht
    exact safely_ite (fun _ => .next (((w.calling h ht).onLine _).fails (by decide) ..)) fun _ => .refused _
  · refine safely_ite (fun _ => .refused _) fun _ => ?_
    split
    · exact .next (w.onLine _)
    · exact .refused _
    all_goals exact .next ((w.onLine _).enterFaulted _)

theorem TablesWf.countDominant (w : TablesWf s) (h : LaneWf (s.lane l)) : Safely TablesWf (countDominant l s) :=
  safely_ite (fun _ => w.raiseStuck h) fun _ => .next (w.onLane ((w.laneAgrees l).of_same rfl rfl rfl))

theorem TablesWf.betweenTransactions (w : TablesWf s) (h : LaneWf (s.lane l)) (dominant : Bool) :
    Safely TablesWf (betweenTransactions l dominant s) := by
  have counts : Safely TablesWf (if dominant then Machine.countDominant l s else .next (Machine.countRecessive l s)) :=
    safely_ite (fun _ => w.countDominant h) fun _ => .next w.countRecessive
  refine safely_ite (fun _ => .next (w.onLine _)) fun _ => ?_
  split
  · exact .next (tablesWf_ite (fun _ => w.objectToSleep) fun _ => w.countRecessive.onLine _)
  · exact safely_ite (fun _ => w.countDominant h) fun _ => safely_ite (fun _ => .next (w.endResponderRun _)) fun _ =>
      .next w.countRecessive
  all_goals exact counts

theorem TablesWf.inTransaction (w : TablesWf s) (h : LaneWf (s.lane l)) (ht : (s.lane l).transaction = some t) (dominant : Bool) :
    Safely TablesWf (inTransaction l t dominant s) := by
  have call := w.calling h ht
  have awaits : TablesWf (if dominant then startCell l t s else (Machine.countRecessive l s).onLine l LineState.waitOn) :=
    tablesWf_ite (fun _ => call.startCell) fun _ => w.countRecessive.onLine _
  unfold Machine.inTransaction
  simp only
  split
  · exact safely_ite (fun _ => w.countDominant h) fun _ => .next w.countRecessive
  · exact call.readBack dominant
  · exact call.readBack dominant
  · exact .next awaits
  · split
    · exact .next awaits
    · exact call.takeBit ‹_› _ dominant
  · exact .next (call.endWindow ‹_› dominant)

/-! ## Every lane event -/

theorem TablesWf.receiveCell {check : LaneId → Transaction → Byte → State → Host.Outcome State Fault Refusal}
    {awaited : Transaction → Bool} (w : TablesWf s) (h : LaneWf (s.lane l)) (cell : Samples 9)
    (hcheck : ∀ t v u, t.phase = .receive → awaited t = true → Calling l t u → Safely TablesWf (check l t v u)) :
    Safely TablesWf (receiveCell l awaited cell s check) :=
  safely_inPhase fun t ht hp => safely_ite
    (fun ha => (w.calling h ht).takeCell (fun v u => hcheck t v u hp ((Bool.and_eq_true _ _).mp ha).1) _) fun _ => .refused _

theorem TablesWf.readbackError (w : TablesWf s) (h : LaneWf (s.lane l)) (ahead : Nat) (read : Samples 1) :
    Safely TablesWf (execReadbackError l ahead read s) := by
  unfold execReadbackError
  split
  · exact .refused _
  · rename_i t ht
    simp only
    split
    · exact .refused _
    · exact safely_ite (fun _ => .next ((w.calling h ht).failReadback _)) fun _ => .refused _

theorem TablesWf.responseStartBit (w : TablesWf s) (h : LaneWf (s.lane l)) (start : Samples 1) :
    Safely TablesWf (execResponseStartBit l start s) := by
  unfold execResponseStartBit
  split
  · exact .refused _
  · rename_i t ht
    exact safely_ite (fun _ => safely_ite (fun _ => .next (w.calling h ht).startCell) fun _ => .next w) fun _ => .refused _

theorem TablesWf.pauseComplete (w : TablesWf s) (h : LaneWf (s.lane l)) : Safely TablesWf (execPauseComplete l s) := by
  refine safely_inCondition fun _ => ?_
  split
  · exact .refused _
  · refine .next (TablesWf.choose (w.onLane ((w.laneAgrees l).of_same rfl rfl rfl)) ?_)
    rw [State.lane_onLane_self]
    exact h.config.probeInterval.2

theorem TablesWf.dominantBitTime (w : TablesWf s) (h : LaneWf (s.lane l)) (bit : Samples 1) :
    Safely TablesWf (execDominantBitTime l bit s) := by
  unfold execDominantBitTime
  simp only
  split
  · exact w.inTransaction h ‹_› _
  · exact w.betweenTransactions h _

/-- An event of a lane whose engine holds what its condition allows keeps the tables in agreement, and is no fault. -/
theorem TablesWf.laneEvent {c : Instr} (w : TablesWf s) (h : LaneWf (s.lane l)) (hl : c.lane = some l) :
    Safely TablesWf (exec c s) := by
  have probe := h.config.probeInterval.2
  have same {f : Lane → Lane} (hs : (f (s.lane l)).schedules = (s.lane l).schedules) (ho : (f (s.lane l)).oneShots = (s.lane l).oneShots)
      (ht : (f (s.lane l)).transaction = (s.lane l).transaction) : TablesWf (s.onLane l f) := w.onLane ((w.laneAgrees l).of_same hs ho ht)
  cases c <;> cases hl
  case gapWaitComplete =>
    refine safely_inPhase fun t ht _ => .next ((w.calling h ht).goesOn rfl rfl rfl ?_)
    exact (w.calling h ht).call.goesOn rfl rfl rfl rfl
  case callComplete => exact safely_inPhase fun t ht _ => .next (w.calling h ht).completeCall
  case responseTimeout => exact safely_inPhase fun t ht _ => .next (((w.calling h ht).onLane rfl rfl rfl rfl).fails (by decide) ..)
  case tagCellReceived cell => exact w.receiveCell h cell fun _ v _ _ _ call => call.takeTag v
  case headerCellReceived cell => exact w.receiveCell h cell fun _ v _ hp _ call => call.takeHeader hp v
  case dataCellReceived cell => exact w.receiveCell h cell fun _ v _ _ _ call => call.takeData v
  case checkCellReceived cell => exact w.receiveCell h cell fun _ v _ _ ha call => call.takeCheck ha v
  case gapTimeout =>
    exact safely_inPhase fun t ht _ => safely_ite (fun _ => .refused _) fun _ =>
      .next (((w.calling h ht).onLane rfl rfl rfl rfl).fails (by decide) ..)
  case pendingWindowEnd window => exact safely_inPhase fun t ht hp => .next ((w.calling h ht).endWindow hp _)
  case publishComplete => exact safely_inPhase fun t ht hp => .next ((w.calling h ht).completePublish hp)
  case readbackError ahead read => exact w.readbackError h ahead read
  case stuckFault => exact w.raiseStuck h
  case pauseComplete => exact w.pauseComplete h
  case sleepReleaseComplete => exact safely_inReleaseWait (.next (((same rfl rfl rfl).changeCondition ..).completeQueued _))
  case sleepReleaseWake => exact safely_inReleaseWait (.next w.objectToSleep)
  case responderWake run => exact safely_inCondition fun _ => safely_ite (fun _ => .refused _) fun _ => .next (w.endResponderRun run)
  case wakePulseEnd => exact safely_inCondition fun _ => safely_ite (fun _ => .next (w.onLine _)) fun _ => .refused _
  case wakeSettleComplete =>
    refine safely_inCondition fun hc => safely_ite (fun _ => .refused _) fun _ => .next (TablesWf.enterResume (same rfl rfl rfl) ?_ ?_ _)
      <;> rw [State.lane_onLane_self]
    · exact h.idle (.inr (.inr (.inl hc)))
    · exact probe
  case recoveryQuietComplete =>
    refine safely_inCondition fun hc => safely_ite (fun _ => .next (TablesWf.leaveFaulted (w.onLine _) ?_ ?_)) fun _ => .next (w.onLine _)
      <;> rw [State.onLine, State.lane_onLane_self]
    · exact h.idle (.inr (.inr (.inr hc)))
    · exact probe
  case responseStartBit start => exact w.responseStartBit h start
  case dominantBitTime bit => exact w.dominantBitTime h bit

end Sys2Proof.Machine
end

section
/-!
The entries of the requests keep the tables in agreement: the lanes, the schedules and the one-shots (R72, R92, R94, R116 to R133).
-/

namespace Sys2Proof.Machine

open Sys2Proof

variable {l : LaneId} {s : State}

/-- The entry of a request keeps the tables in agreement, on a part whose lanes hold what their conditions allow. -/
def KeepsTables (act : List Byte → State → State × Answer) : Prop :=
  ∀ (body : List Byte) (s : State), LanesWf s → TablesWf s → Leaves TablesWf (act body s)

theorem keepsTables_laneAlone {k : LaneId → State → State × Answer} (h : ∀ l s, LanesWf s → TablesWf s → Leaves TablesWf (k l s)) :
    KeepsTables (laneAlone k) := fun body s wl w => leaves_laneAlone w (fun l => h l s wl w) body

theorem LanesWf.probe (wl : LanesWf s) (l : LaneId) : (s.lane l).config.probeInterval ≤ 32 := (wl l).config.probeInterval.2

/-! ## Lane requests -/

theorem keepsTables_configLane : KeepsTables configLane := by
  intro body s wl w
  unfold configLane
  split
  · refine leaves_withLane w fun l => ?_
    split
    · exact leaves_refuse _ w
    · exact leaves_ite (fun _ => leaves_accept (w.onLane ((w.laneAgrees l).of_same rfl rfl rfl))) fun _ => leaves_refuse _ w
  · exact leaves_refuse _ w

theorem TablesWf.setResume (w : TablesWf s) (r : Resume) : TablesWf (setResume l r s) := w.onLane ((w.laneAgrees l).of_same rfl rfl rfl)

theorem TablesWf.requestRecovery (w : TablesWf s) (wl : LanesWf s) (ht : (s.lane l).transaction = none) (r : Resume) :
    TablesWf (requestRecovery l r s) := by
  have resumed : TablesWf (Machine.setResume l r s) := w.setResume r
  have armed : TablesWf ((Machine.setResume l r s).onLane l fun L => { L with recoveryArmed := true }) :=
    resumed.onLane ((resumed.laneAgrees l).of_same rfl rfl rfl)
  refine tablesWf_ite (fun _ => resumed) fun _ => tablesWf_ite (fun _ => armed.leaveFaulted ?_ ?_) fun _ => armed
    <;> rw [State.lane_onLane_self, Machine.setResume, State.lane_onLane_self]
  · exact ht
  · exact wl.probe l

/-- Forbidding follow-ups leaves a transaction with its slot, source, kind and header (R61). -/
theorem TablesWf.forbidFollowUps (w : TablesWf s) (l : LaneId) : TablesWf (forbidFollowUps l s) := by
  have agrees := w.laneAgrees l
  refine w.onLane (agrees.of_subset (List.Subset.refl _) (List.Subset.refl _) fun t ht => ?_)
  obtain ⟨t', ht', rfl⟩ := Option.map_eq_some_iff.mp ht
  exact (agrees.call t' ht').goesOn rfl rfl rfl rfl

theorem TablesWf.resetRound (w : TablesWf s) : TablesWf (resetRound l s) := w.onLane ((w.laneAgrees l).of_same rfl rfl rfl)

theorem keepsTables_startLane (l : LaneId) (s : State) (wl : LanesWf s) (w : TablesWf s) : Leaves TablesWf (startLane l s) := by
  unfold startLane
  split
  case h_1 hc => exact leaves_accept (w.enterRunning ((wl l).idle (.inl hc)) (wl.probe l) _)
  case h_5 | h_6 => exact leaves_accept (w.setResume _)
  case h_7 hc => exact leaves_accept (w.requestRecovery wl ((wl l).idle (.inr (.inr (.inr hc)))) _)
  all_goals exact leaves_refuse _ w

theorem keepsTables_haltLane (l : LaneId) (s : State) (wl : LanesWf s) (w : TablesWf s) : Leaves TablesWf (haltLane l s) := by
  unfold haltLane
  split
  case h_1 =>
    have forbidden := w.forbidFollowUps l
    refine leaves_ite (fun _ => leaves_accept (forbidden.onLane ((forbidden.laneAgrees l).of_same rfl rfl rfl))) fun idle =>
      leaves_accept (w.resetRound.enterHalted ?_ _)
    rw [resetRound, State.lane_onLane_self]
    simpa [State.busy, Lane.onRound] using idle
  case h_5 | h_6 => exact leaves_accept (w.setResume _)
  case h_7 hc => exact leaves_accept (w.requestRecovery wl ((wl l).idle (.inr (.inr (.inr hc)))) _)
  all_goals exact leaves_refuse _ w

theorem TablesWf.enterSleepPending (w : TablesWf s) (r : Resume) : TablesWf (enterSleepPending l r s) := by
  have pending : TablesWf (Machine.changeCondition l .sleepPending .request (Machine.setResume l r s)) :=
    (w.setResume r).changeCondition ..
  exact tablesWf_ite (fun _ => pending) fun _ => pending.beginSleepCall

theorem keepsTables_sleepLane (l : LaneId) (s : State) (w : TablesWf s) : Leaves TablesWf (sleepLane l s) := by
  unfold sleepLane
  split
  · exact leaves_accept (w.enterSleepPending _)
  · exact leaves_accept ((w.forbidFollowUps l).resetRound.enterSleepPending _)
  all_goals exact leaves_refuse _ w

theorem keepsTables_wakeLane (l : LaneId) (s : State) (w : TablesWf s) : Leaves TablesWf (wakeLane l s) := by
  unfold wakeLane
  split
  · exact leaves_accept (TablesWf.changeCondition (w.onLane ((w.laneAgrees l).of_same rfl rfl rfl)) ..)
  all_goals exact leaves_refuse _ w

theorem keepsTables_readLaneStatus : KeepsTables readLaneStatus := by
  intro body s wl w
  unfold readLaneStatus
  split
  · refine leaves_withLane w fun l => ?_
    split
    · exact leaves_refuse _ w
    · exact leaves_accept (tablesWf_ite (fun _ => w.onLane ((w.laneAgrees l).of_same rfl rfl rfl)) fun _ => w)
  · exact leaves_refuse _ w

theorem keepsTables_clearCapture (l : LaneId) (s : State) (w : TablesWf s) : Leaves TablesWf (clearCapture l s) :=
  leaves_accept (w.onLane ((w.laneAgrees l).of_same rfl rfl rfl))

/-! ## Schedule requests -/

/-- The schedules change, with entries that agree and the active ones as they were. -/
theorem TablesWf.onSchedules (w : TablesWf s) {f : Schedules → Schedules}
    (he : ∀ e ∈ Lane.entries { s.lane l with schedules := f (s.lane l).schedules },
      e.slot ≠ 0 ∧ s.forms l e.slot ≠ .undefined ∧ e.phase < 2 ^ e.exponent.val)
    (ha : (f (s.lane l).schedules).active = (s.lane l).schedules.active) : TablesWf (s.onSchedules l f) := by
  have agrees := w.laneAgrees l
  exact w.onLane ⟨he, agrees.oneShots, fun t ht => ha ▸ agrees.call t ht⟩

/-- The builder is opened afresh or discarded (R73, R76). -/
theorem TablesWf.clearBuilder (w : TablesWf s) {builder : Option (List Entry)} (hb : builder.getD [] = []) :
    TablesWf (s.onSchedules l fun x => { x with builder }) := by
  refine w.onSchedules (fun e he => (w.laneAgrees l).entries e ?_) rfl
  simp only [Lane.entries, hb, List.nil_append, List.append_assoc] at he ⊢
  exact List.mem_append_right _ he

theorem keepsTables_schedOpen : KeepsTables schedOpen := by
  intro body s wl w
  unfold schedOpen
  split
  · exact leaves_withLane w fun l => leaves_accept (w.clearBuilder rfl)
  · exact leaves_refuse _ w

theorem keepsTables_schedDiscard : KeepsTables schedDiscard := by
  intro body s wl w
  unfold schedDiscard
  split
  · refine leaves_withLane w fun l => ?_
    split
    · exact leaves_refuse _ w
    · exact leaves_accept (w.clearBuilder rfl)
  · exact leaves_refuse _ w

theorem userSlotOf_ne_zero {b : Byte} {k : SlotId} (h : userSlotOf b = some k) : k ≠ 0 := by
  simpa using (Option.filter_eq_some_iff.mp h).2

theorem timingOf_lt {b : Byte} {exponent : Fin 5} {phase : Nat} (h : timingOf b = some (exponent, phase)) :
    phase < 2 ^ exponent.val := by
  unfold timingOf at h
  simp only at h
  split at h
  · split at h
    · cases h
      assumption
    · cases h
  · cases h

/-- The entries taken by SCHED_ADD have passed their checks (R72, R74). -/
theorem entryOf_passes {slot timing : Byte} {e : Entry} (h : entryOf s l slot timing = .ok e) : e.Passes s l := by
  unfold entryOf at h
  split at h
  · cases h
  · rename_i k hk
    split at h
    · cases h
    · cases h
    · rename_i exponent phase ht defined
      cases h
      exact ⟨userSlotOf_ne_zero hk, defined, timingOf_lt ht⟩

theorem entriesOf_passes (carried : List Byte) : ∀ {entries : List Entry}, entriesOf s l carried = .ok entries →
    ∀ e ∈ entries, e.Passes s l := by
  induction carried using entriesOf.induct s l with
  | case1 slot timing rest status he =>
    intro entries h
    simp only [entriesOf, he, reduceCtorEq] at h
  | case2 slot timing rest e he ih =>
    intro entries h
    simp only [entriesOf, he] at h
    cases hr : entriesOf s l rest with
    | error status => rw [hr] at h; cases h
    | ok others =>
      rw [hr] at h
      cases h
      exact List.forall_mem_cons.mpr ⟨entryOf_passes he, ih hr⟩
  | case3 carried hshort =>
    intro entries h
    rw [entriesOf] at h
    · cases h
      nofun
    · exact hshort

theorem keepsTables_schedAdd : KeepsTables schedAdd := by
  intro body s wl w
  unfold schedAdd
  split
  · refine leaves_withLane w fun l => ?_
    split
    · exact leaves_refuse _ w
    · rename_i held hb
      split
      · exact leaves_refuse _ w
      · rename_i entries he
        refine leaves_ite (fun _ => leaves_accept (w.onSchedules (fun e hm => ?_) rfl)) fun _ => leaves_refuse _ w
        simp only [Lane.entries, Option.getD_some, List.append_assoc, List.mem_append] at hm
        by_cases added : e ∈ entries
        · obtain ⟨user, defined, phase⟩ := entriesOf_passes _ he e added
          exact ⟨user, mt (SlotRecord.form_eq_undefined_iff _).mp defined, phase⟩
        · refine (w.laneAgrees l).entries e ?_
          simp only [Lane.entries, hb, Option.getD_some, List.append_assoc, List.mem_append]
          tauto
  · exact leaves_refuse _ w

/-- A lane on which a commit swaps at once has no transaction in progress (R75, R84). -/
theorem LaneWf.idle_of_swapsAtOnce {L : Lane} (h : LaneWf L) (hs : L.swapsAtOnce = true) : L.transaction = none := by
  simp only [Lane.swapsAtOnce, Bool.or_eq_true, Bool.and_eq_true, beq_iff_eq, Option.isNone_iff_eq_none] at hs
  rcases hs with hc | ⟨-, ht⟩
  · exact h.idle (.inl hc)
  · exact ht

theorem keepsTables_schedCommit : KeepsTables schedCommit := by
  intro body s wl w
  unfold schedCommit
  split
  · refine leaves_withLane w fun l => ?_
    split
    · exact leaves_refuse _ w
    · rename_i entries hb
      have staged : TablesWf (s.onSchedules l fun x => { x with builder := none, staged := some entries }) := by
        refine w.onSchedules (fun e he => (w.laneAgrees l).entries e ?_) rfl
        simp only [Lane.entries, hb, Option.getD_none, Option.getD_some, List.nil_append, List.mem_append] at he ⊢
        tauto
      refine leaves_ite (fun hs => leaves_accept ?_) fun _ => leaves_accept staged
      have swapped := staged.swapStaged (l := l) (by
        rw [State.onSchedules, State.lane_onLane_self]
        exact (wl l).idle_of_swapsAtOnce hs)
      refine tablesWf_ite (fun _ => swapped.choose ?_) fun _ => swapped
      rw [(OnlyLane.swapStaged ..).config, State.onSchedules, State.lane_onLane_self]
      exact wl.probe l
  · exact leaves_refuse _ w

theorem keepsTables_readSchedule : KeepsTables readSchedule := by
  intro body s wl w
  unfold readSchedule
  split
  · refine leaves_withLane w fun l => ?_
    split
    · exact leaves_accept w
    · exact leaves_refuse _ w
  · exact leaves_refuse _ w

/-! ## One-shot requests -/

/-- What SEND_ONCE takes for a slot is what a one-shot of its form carries (R92, R94). -/
theorem oneShotOf_carries {x : SlotRecord} {fed : Bool} {data : List Byte} {kind : OneShotKind} {carried : Option (List Byte)}
    (h : oneShotOf x fed data = .ok (kind, carried)) (handle : Nat) (k : SlotId) : x.form.Carries ⟨handle, k, kind, carried⟩ := by
  cases x with
  | undefined => cases h
  | polled r | contended r =>
    simp only [oneShotOf] at h
    split at h
    · cases h
      exact ⟨rfl, rfl⟩
    · cases h
  | published p =>
    simp only [oneShotOf] at h
    split at h
    · cases h
    · split at h
      · cases h
        exact ⟨rfl, data, rfl, ‹_›⟩
      · cases h

theorem TablesWf.queued (w : TablesWf s) {o : OneShot} (user : o.slot ≠ 0) (carries : (s.forms l o.slot).Carries o) :
    TablesWf (s.queued l o) := by
  have numbered : TablesWf { s with nextHandle := nextNumber o.handle } := w.congr rfl rfl rfl
  have agrees := w.laneAgrees l
  refine numbered.onLane ⟨agrees.entries, fun o' ho' => ?_, agrees.call⟩
  rcases List.mem_append.mp ho' with held | added
  · exact agrees.oneShots o' held
  · obtain rfl := List.mem_singleton.mp added
    exact ⟨user, carries⟩

theorem keepsTables_queueOneShot (wl : LanesWf s) (w : TablesWf s) {k : SlotId} {kind : OneShotKind} {data : Option (List Byte)}
    (user : k ≠ 0) (carries : ∀ handle, (s.forms l k).Carries ⟨handle, k, kind, data⟩) :
    Leaves TablesWf (queueOneShot l k kind data s) := by
  rw [queueOneShot_eq]
  have queued : TablesWf (s.queued l ⟨freeHandle s.handles s.nextHandle, k, kind, data⟩) := w.queued user (carries _)
  refine leaves_accept (tablesWf_ite (fun _ => queued.choose ?_) fun _ => queued)
  rw [State.queued, State.lane_onLane_self]
  exact wl.probe l

theorem keepsTables_sendOnce : KeepsTables sendOnce := by
  intro body s wl w
  unfold sendOnce
  split
  · rename_i lane slot data
    refine leaves_withLane w fun l => ?_
    unfold withUserSlot
    split
    · exact leaves_refuse _ w
    · rename_i k hk
      refine leaves_ite (fun _ => leaves_refuse _ w) fun _ => leaves_ite (fun _ => leaves_refuse _ w) fun _ => ?_
      split
      · exact leaves_refuse _ w
      · rename_i kind carried ho
        exact leaves_ite (fun _ => keepsTables_queueOneShot wl w (userSlotOf_ne_zero hk) fun handle => oneShotOf_carries ho handle k)
          fun _ => leaves_refuse _ w
  · exact leaves_refuse _ w

theorem keepsTables_withdraw : KeepsTables withdraw := by
  intro body s wl w
  unfold withdraw
  split
  · simp only
    split
    · rename_i l _
      have agrees := w.laneAgrees l
      have removed (handle : Nat) : TablesWf (s.onLane l fun L => { L with oneShots := L.oneShots.eraseP fun o => o.handle == handle }) :=
        w.onLane (agrees.of_subset (List.Subset.refl _) List.eraseP_subset agrees.call)
      exact leaves_accept ((removed _).report _)
    · exact leaves_ite (fun _ => leaves_refuse _ w) fun _ => leaves_refuse _ w
  · exact leaves_refuse _ w

end Sys2Proof.Machine
end

section
/-!
Every step keeps the tables in agreement, and no step faults: the requests of the slots and the routes, which are refused where something
names the slot, the events of the part, and the resets (R1 to R7, R17, R20 to R22, R106, R107).
-/

namespace Sys2Proof.Machine

open Sys2Proof

variable {l : LaneId} {s : State} {ref : SlotRef}

/-! ## DEFINE_SLOT and CLEAR_SLOT -/

theorem lengthRuleOf_bound {form n : Byte} {rule : LengthRule} (h : lengthRuleOf form n = some rule) : rule.bound ≤ 12 := by
  unfold lengthRuleOf at h
  split at h
  · split at h
    · cases h
      assumption
    · split at h
      · cases h
        assumption
      · cases h
  · cases h

/-- What DEFINE_SLOT asks for is a well-formed record (R1, R3, R5). -/
theorem slotSpecOf_recordWf {kind form n mode param : Byte} {spec : SlotSpec} (h : slotSpecOf kind form n mode param = some spec) :
    RecordWf spec.record := by
  simp only [slotSpecOf, Option.bind_eq_bind, Option.bind_eq_some_iff] at h
  obtain ⟨rule, hrule, mode, -, h⟩ := h
  have bound := lengthRuleOf_bound hrule
  have polled (limit : Nat) (low : 1 ≤ limit) (high : limit ≤ 15) : RecordWf (SlotSpec.polled rule mode limit).record :=
    ⟨bound, low, high, Nat.zero_le _, Nat.zero_le _, nofun, by simp only [reduceCtorEq, false_iff]; omega, fun _ => rfl⟩
  have contended (budget : Nat) (high : budget ≤ 7) : RecordWf (SlotSpec.contended rule mode budget).record := ⟨bound, high, nofun⟩
  split at h
  · split at h
    · cases h
      exact polled 3 (by omega) (by omega)
    · obtain ⟨limit, hlimit, rfl⟩ := Option.map_eq_some_iff.mp h
      obtain ⟨low, high⟩ := inRange_eq_some hlimit
      exact polled limit low high
  · split at h
    · split at h
      · cases h
        exact contended 3 (by omega)
      · obtain ⟨budget, hbudget, rfl⟩ := Option.map_eq_some_iff.mp h
        exact contended budget (inRange_eq_some hbudget).2
    · split at h
      · split at h
        · split at h
          · cases h
            exact ⟨bound, nofun, nofun, nofun⟩
          · cases h
        · cases h
      · cases h

theorem leaves_withNamedSlot {P : State → Prop} {b : Byte} {k : SlotId → State × Answer} (h0 : P s)
    (h : ∀ slot, slot ≠ 0 → Leaves P (k slot)) : Leaves P (withUserSlot b s k) := by
  unfold withUserSlot
  split
  · exact leaves_refuse _ h0
  · exact h _ (userSlotOf_ne_zero ‹_›)

theorem keepsTables_defineSlot : KeepsTables defineSlot := by
  intro body s wl w
  unfold defineSlot
  split
  · refine leaves_withLane w fun l => leaves_withNamedSlot w fun k hk => ?_
    split
    · exact leaves_refuse _ w
    · rename_i spec hspec
      exact leaves_ite (fun _ => leaves_refuse _ w) fun unnamed =>
        leaves_accept (w.redefine hk (mt (s.inUse_iff _).mpr unnamed) (slotSpecOf_recordWf hspec))
  · exact leaves_refuse _ w

theorem keepsTables_clearSlot : KeepsTables clearSlot := by
  intro body s wl w
  unfold clearSlot
  split
  · exact leaves_withLane w fun l => leaves_withNamedSlot w fun k hk => leaves_ite (fun _ => leaves_refuse _ w) fun unnamed =>
      leaves_accept (w.redefine hk (mt (s.inUse_iff _).mpr unnamed) trivial)
  · exact leaves_refuse _ w

/-! ## WRITE_SLOT, READ_SLOT and SET_FAILSAFE -/

/-- A slot that the host may write: PUBLISHED and the destination of no route (R183, R185). -/
theorem leaves_withUnfedSlot {P : State → Prop} {k : PublishedRec → State × Answer} (h0 : P s)
    (h : ∀ p, s.slot ref = .published p → ¬ RouteFed s ref → Leaves P (k p)) : Leaves P (withHostPublished ref s k) := by
  unfold withHostPublished
  split
  case h_4 p hp => exact leaves_ite (fun _ => leaves_refuse _ h0) fun unfed => h p hp (mt (s.routeFed_iff ref).mpr unfed)
  all_goals exact leaves_refuse _ h0

theorem keepsTables_writeSlot : KeepsTables writeSlot := by
  intro body s wl w
  unfold writeSlot
  split
  · rename_i lane slot data
    refine leaves_withLane w fun l => leaves_withNamedSlot w fun k hk => leaves_withUnfedSlot w fun p hp unfed =>
      leaves_ite (fun length => leaves_accept (w.setPublished hp hk rfl ?_ fun _ => rfl)) fun _ => leaves_refuse _ w
    obtain ⟨bound, -, failsafe, -⟩ := hp ▸ w.records ⟨l, k⟩
    refine ⟨bound, ?_, failsafe, nofun⟩
    rintro _ ⟨⟩
    exact length
  · exact leaves_refuse _ w

theorem keepsTables_readSlot : KeepsTables readSlot := by
  intro body s wl w
  unfold readSlot
  split
  · refine leaves_withLane w fun l => ?_
    split
    · exact leaves_refuse _ w
    · exact leaves_accept w
  · exact leaves_refuse _ w

/-- A published record after SET_FAILSAFE with data of its length (R20). -/
theorem RecordWf.setFailsafe {p : PublishedRec} (h : RecordWf (.published p)) {data : List Byte} (length : data.length = p.length) :
    (p.setFailsafe data).length = p.length ∧ RecordWf (.published (p.setFailsafe data)) := by
  obtain ⟨bound, current, -, -⟩ := h
  have fits : ∀ d, some data = some d → d.length = p.length := by
    rintro _ ⟨⟩
    exact length
  unfold PublishedRec.setFailsafe
  split
  · exact ⟨rfl, bound, fits, fits, fun _ => rfl⟩
  · exact ⟨rfl, bound, current, fits, fun _ => rfl⟩

theorem RecordWf.clearFailsafe {p : PublishedRec} (h : RecordWf (.published p)) : RecordWf (.published p.clearFailsafe) := by
  obtain ⟨bound, current, -, -⟩ := h
  exact ⟨bound, current, nofun, nofun⟩

theorem keepsTables_setFailsafe : KeepsTables setFailsafe := by
  intro body s wl w
  unfold setFailsafe
  split
  · refine leaves_withLane w fun l => leaves_withNamedSlot w fun k hk => ?_
    split
    · exact leaves_refuse _ w
    · rename_i clears _
      refine leaves_withUnfedSlot w fun p hp unfed => leaves_ite (fun length => leaves_accept ?_) fun _ => leaves_refuse _ w
      have record : RecordWf (.published p) := hp ▸ w.records ⟨l, k⟩
      cases clears with
      | true => exact w.setPublished hp hk rfl record.clearFailsafe fun fed => absurd fed unfed
      | false =>
        obtain ⟨same, set⟩ := record.setFailsafe length
        exact w.setPublished hp hk same set fun fed => absurd fed unfed
  · exact leaves_refuse _ w

/-! ## ROUTE_SET and ROUTE_CLEAR -/

/-- A route that ROUTE_SET does not refuse (steps 5 to 8 of R107). -/
theorem routeRefusal_eq_none {i : Fin 16} {r : Route} (h : routeRefusal s i r = none) :
    ∃ p, s.slot r.dst = .published p ∧ (s.slot r.src).lengthRule = some (.exact p.length)
      ∧ ∀ j y, j ≠ i → s.route j = some y → y.dst ≠ r.dst := by
  by_cases hu : s.slot r.src = .undefined ∨ s.slot r.dst = .undefined
  · rw [routeRefusal_undefined hu] at h
    cases h
  · obtain ⟨hs, hd⟩ := not_or.mp hu
    by_cases hk : (¬ ∃ rule, (s.slot r.src).lengthRule = some rule) ∨ ∀ p, s.slot r.dst ≠ .published p
    · rw [routeRefusal_wrongKind hs hd hk] at h
      cases h
    · obtain ⟨hrule, hpublished⟩ := not_or.mp hk
      obtain ⟨rule, hrule⟩ := not_not.mp hrule
      obtain ⟨p, hp⟩ := not_forall.mp hpublished
      have hp := not_not.mp hp
      rw [routeRefusal_called hrule hp] at h
      split at h
      · cases h
      · rename_i exact'
        split at h
        · cases h
        · rename_i elsewhere
          exact ⟨p, hp, by rw [hrule, not_not.mp exact'], fun j y hj hy hdst =>
            elsewhere ((s.fedElsewhere_iff i r.dst).mpr ⟨j, y, hj, hy, hdst⟩)⟩

/-- A change of the Route Table alone, whose routes are well formed. -/
theorem TablesWf.setRoutes {t : State} (w : TablesWf s) (slots : t.slots = s.slots) (lanes : t.lanes = s.lanes) (routes : RoutesWf t) :
    TablesWf t := by
  have slot (r : SlotRef) : t.slot r = s.slot r := State.slot_of_slots slots r
  have lane (l : LaneId) : t.lane l = s.lane l := by simp only [State.lane, lanes]
  have forms (l : LaneId) : t.forms l = s.forms l := funext fun k => congrArg SlotRecord.form (slot _)
  refine RecordsWf.tablesWf ⟨fun l => slot _ ▸ w.sleep l, fun r => slot r ▸ w.records r, routes⟩ fun l => ?_
  rw [forms, lane]
  exact w.laneAgrees l

/-- The places of the Route Table after one of them has been set. -/
theorem State.route_setRoute (s : State) (i j : Fin 16) (r : Option Route) :
    (s.setRoute i r).route j = if j = i then r else s.route j := by
  split
  · subst j
    exact s.route_setRoute_self i r
  · exact s.route_setRoute_of_ne r ‹_›

theorem TablesWf.clearRoute (w : TablesWf s) (i : Fin 16) : TablesWf (s.setRoute i none) := by
  have held {j : Fin 16} {y : Route} (h : (s.setRoute i none).route j = some y) : s.route j = some y := by
    rw [State.route_setRoute] at h
    split at h
    · cases h
    · exact h
  exact w.setRoutes rfl rfl ⟨fun j y hy => w.routes.user j y (held hy), fun j y hy => w.routes.ends j y (held hy),
    fun j k y z hy hz => w.routes.single j k y z (held hy) (held hz)⟩

/-- Setting a route clears the failsafe-active flag of its destination (R22, R108). -/
theorem TablesWf.setRoute (w : TablesWf s) {i : Fin 16} {r : Route} (user : r.src.slot ≠ 0 ∧ r.dst.slot ≠ 0)
    (h : routeRefusal s i r = none) : TablesWf ((s.setRoute i (some r)).clearFailsafeActive r.dst) := by
  obtain ⟨p, hp, rule, elsewhere⟩ := routeRefusal_eq_none h
  have unfed : ¬ RouteFed (s.setRoute i none) r.dst := by
    rintro ⟨j, y, hy, hdst⟩
    rw [State.route_setRoute] at hy
    split at hy
    · cases hy
    · exact elsewhere j y ‹_› hy hdst
  obtain ⟨bound, current, failsafe, -⟩ := hp ▸ w.records r.dst
  have cleared : TablesWf ((s.setRoute i none).setSlot r.dst (.published { p with failsafeActive := false })) :=
    (w.clearRoute i).setPublished hp user.2 rfl ⟨bound, current, failsafe, nofun⟩ fun _ => rfl
  have result : (s.setRoute i (some r)).clearFailsafeActive r.dst
      = (s.setRoute i (some r)).setSlot r.dst (.published { p with failsafeActive := false }) := by
    simp only [State.clearFailsafeActive, State.slot_setRoute, hp]
  rw [result]
  have apart : r.src ≠ r.dst := fun e => by rw [e, hp] at rule; cases rule
  have place (j : Fin 16) (y : Route) (hy : ((s.setRoute i (some r)).setSlot r.dst (.published { p with failsafeActive := false })).route j
      = some y) : j = i ∧ r = y ∨ j ≠ i ∧ s.route j = some y
        ∧ ((s.setRoute i none).setSlot r.dst (.published { p with failsafeActive := false })).route j = some y := by
    change (s.setRoute i (some r)).route j = some y at hy
    rw [State.route_setRoute] at hy
    split at hy
    · exact .inl ⟨‹_›, Option.some.inj hy⟩
    · refine .inr ⟨‹_›, hy, ?_⟩
      change (s.setRoute i none).route j = some y
      rwa [State.route_setRoute_of_ne _ _ ‹_›]
  refine cleared.setRoutes rfl rfl ⟨fun j y hy => ?_, fun j y hy => ?_, fun j k y z hy hz hd => ?_⟩
  · rcases place j y hy with ⟨-, rfl⟩ | ⟨-, -, hy⟩
    · exact user
    · exact cleared.routes.user j y hy
  · rcases place j y hy with ⟨-, rfl⟩ | ⟨-, -, hy⟩
    · exact ⟨_, State.slot_setSlot_self .., rfl, by rw [State.slot_setSlot_of_ne _ _ apart]; exact rule⟩
    · exact cleared.routes.ends j y hy
  · rcases place j y hy with ⟨rfl, rfl⟩ | ⟨hj, heldy, hy⟩ <;> rcases place k z hz with ⟨rfl, rfl⟩ | ⟨hk, heldz, hz⟩
    · rfl
    · exact absurd hd.symm (elsewhere k z hk heldz)
    · exact absurd hd (elsewhere j y hj heldy)
    · exact cleared.routes.single j k y z hy hz hd

theorem keepsTables_routeSet : KeepsTables routeSet := by
  intro body s wl w
  unfold routeSet
  split
  · split
    · exact leaves_refuse _ w
    · refine leaves_withLane w fun sl => leaves_withLane w fun dl => leaves_withNamedSlot w fun sk hsk =>
        leaves_withNamedSlot w fun dk hdk => ?_
      split
      · exact leaves_refuse _ w
      · simp only
        split
        · exact leaves_refuse _ w
        · exact leaves_accept (w.setRoute ⟨hsk, hdk⟩ ‹_›)
  · exact leaves_refuse _ w

theorem keepsTables_routeClear : KeepsTables routeClear := by
  intro body s wl w
  unfold routeClear
  split
  · split
    · exact leaves_refuse _ w
    · exact leaves_accept (w.clearRoute _)
  · exact leaves_refuse _ w

/-! ## Link and report requests -/

theorem TablesWf.onHli (w : TablesWf s) (f : Hli → Hli) : TablesWf (s.onHli f) := w.congr rfl rfl rfl

theorem keepsTables_linkReset : KeepsTables linkReset := fun _ _ _ w => leaves_accept (w.congr rfl rfl rfl)

theorem keepsTables_readLinkStatus : KeepsTables readLinkStatus := by
  intro body s wl w
  unfold readLinkStatus
  split
  · split
    · exact leaves_refuse _ w
    · exact leaves_accept (tablesWf_ite (fun _ => w.onHli _) fun _ => w)
  · exact leaves_refuse _ w

theorem keepsTables_setSilenceLimit : KeepsTables setSilenceLimit := by
  intro body s wl w
  unfold setSilenceLimit
  split
  · exact leaves_accept (w.onHli _)
  · exact leaves_refuse _ w

theorem keepsTables_reportCredit : KeepsTables reportCredit := by
  intro body s wl w
  unfold reportCredit
  split
  · split
    · exact leaves_refuse _ w
    · exact leaves_accept (w.onHli _)
  · exact leaves_refuse _ w

theorem keepsTables_reportAck : KeepsTables reportAck := by
  intro body s wl w
  unfold reportAck
  split
  · split
    · exact leaves_refuse _ w
    · exact leaves_accept (w.congr rfl rfl rfl)
  · exact leaves_refuse _ w

/-! ## The request handler -/

/-- Taking a frame and answering it is of the host link alone (R157). -/
theorem safely_handle {f : Frame} {act : List Byte → State → State × Answer} (h : KeepsTables act) (wl : LanesWf s) (w : TablesWf s) :
    Safely TablesWf (handle f act s) := by
  refine safely_ite (fun _ => .refused _) fun _ => safely_ite (fun _ => .refused _) fun _ => safely_ite (fun _ => ?_) fun _ => .refused _
  simp only
  split
  · exact .next (w.congr rfl rfl rfl)
  · have acted : TablesWf (act f.body (s.onHli Hli.popBuffer)).1 := h f.body _ (wl.of_lanes rfl) (w.onHli _)
    exact .next (acted.congr rfl rfl rfl)

theorem safely_request {act : List Byte → State → State × Answer} (h : KeepsTables act) (wl : LanesWf s) (w : TablesWf s)
    (code tag : Byte) (body : List Byte) : Safely TablesWf (handleRequest code tag body act s) :=
  safely_handle (fun body s wl w => leaves_checkLength w (h body s wl w)) wl w

/-! ## The events of the part -/

/-- After a reset the slots of every lane are UNDEFINED, the sleep slot apart, and nothing names a slot (R2, R7, R71). -/
theorem tablesWf_afterReset (rate : HostRate) (cause : ResetCause) (pending : List Instr) :
    TablesWf (State.afterReset rate cause pending) := by
  have reset := afterReset_afterReset rate cause pending
  refine RecordsWf.tablesWf ⟨fun l => ⟨none, reset.sleepSlots l⟩, fun r => ?_, ?_⟩ fun l => ?_
  · by_cases hr : r.slot = 0
    · rw [show r = ⟨r.lane, 0⟩ by rw [← hr], reset.sleepSlots]
      exact ⟨by decide, by rintro _ ⟨⟩; rfl, nofun, nofun⟩
    · rw [reset.slots r hr]
      exact trivial
  · exact ⟨fun i y hy => by simp [reset.routes] at hy, fun i y hy => by simp [reset.routes] at hy,
      fun i j y z hy => by simp [reset.routes] at hy⟩
  · rw [State.lane_afterReset]
    constructor <;> simp [Lane.reset, Lane.entries]

theorem safely_insideFrame {P : State → Prop} {k : State → Host.Outcome State Fault Refusal}
    (h : Safely P (k (s.onHli fun h => { h with receiver := .hunting }))) : Safely P (insideFrame s k) := by
  unfold insideFrame
  split
  · exact .refused _
  · exact h

theorem TablesWf.goodFrame (w : TablesWf s) (bytes : List LinkLevels) : Safely TablesWf (execGoodFrame bytes s) := by
  refine safely_insideFrame ?_
  split
  · exact .refused _
  · refine .next (TablesWf.onHli ?_ _)
    unfold guardTakesFrame
    simp only
    split <;> exact w.congr rfl rfl rfl

theorem TablesWf.frameDiscard (w : TablesWf s) (found : DiscardedByte) : Safely TablesWf (execFrameDiscard found s) := by
  refine safely_insideFrame ?_
  split
  · exact .next (w.congr rfl rfl rfl)
  · exact safely_ite (fun _ => .refused _) fun _ => safely_ite (fun _ => .next (w.congr rfl rfl rfl)) fun _ =>
      .next (w.congr rfl rfl rfl)

theorem TablesWf.crcMismatch (w : TablesWf s) (bytes : List LinkLevels) : Safely TablesWf (execCrcMismatch bytes s) := by
  refine safely_insideFrame ?_
  exact safely_ite (fun _ => .next (w.congr rfl rfl rfl)) fun _ => .refused _

theorem TablesWf.frameGapTimeout (w : TablesWf s) : Safely TablesWf (execFrameGapTimeout s) := by
  refine safely_insideFrame ?_
  exact .next (w.congr rfl rfl rfl)

theorem TablesWf.frameStartByte (w : TablesWf s) (levels : LinkLevels) : Safely TablesWf (execFrameStartByte s levels) := by
  unfold execFrameStartByte
  split
  · exact safely_ite (fun _ => .next (w.onHli _)) fun _ => .next w
  · exact .refused _

theorem State.slot_applyFailsafe (s : State) (r : SlotRef) : s.applyFailsafe.slot r = (s.slot r).applyFailsafe (s.routeFed r) := by
  simp [State.applyFailsafe, State.slot]

/-- The failsafe application leaves a record alone, or replaces the data of a published slot that is not route-fed by its failsafe data
(R21). -/
theorem SlotRecord.applyFailsafe_cases (x : SlotRecord) (fed : Bool) : x.applyFailsafe fed = x
    ∨ ∃ p d, x = .published p ∧ p.failsafe = some d ∧ fed = false
      ∧ x.applyFailsafe fed = .published { p with data := some d, seq := p.seq + 1, failsafeActive := true } := by
  cases x with
  | published p =>
    cases hf : p.failsafe with
    | none => exact .inl (by simp only [SlotRecord.applyFailsafe, hf])
    | some d =>
      cases fed with
      | true => exact .inl (by simp only [SlotRecord.applyFailsafe, hf])
      | false => exact .inr ⟨p, d, rfl, hf, rfl, by simp only [SlotRecord.applyFailsafe, hf, PublishedRec.put]⟩
  | undefined | polled | contended => exact .inl rfl

/-- The failsafe data of a slot is of its length, and a slot that a route feeds takes none (R20, R21, R114). -/
theorem TablesWf.applyFailsafe (w : TablesWf s) : TablesWf s.applyFailsafe := by
  have record (r : SlotRef) : s.applyFailsafe.slot r = s.slot r ∨ ∃ p d, s.slot r = .published p ∧ p.failsafe = some d ∧ ¬ RouteFed s r
      ∧ s.applyFailsafe.slot r = .published { p with data := some d, seq := p.seq + 1, failsafeActive := true } := by
    rw [State.slot_applyFailsafe]
    rcases (s.slot r).applyFailsafe_cases (s.routeFed r) with same | ⟨p, d, hp, hd, unfed, applied⟩
    · exact .inl same
    · exact .inr ⟨p, d, hp, hd, fun fed => by simp [(s.routeFed_iff r).mpr fed] at unfed, applied⟩
  refine w.of_forms (fun r => ?_) rfl rfl (fun l => ?_) (fun r => ?_) fun r q fed hq => ?_
  · rcases record r with same | ⟨p, d, hp, -, -, applied⟩
    · rw [same]
    · rw [applied, hp]
      rfl
  · obtain ⟨o, ho⟩ := w.sleep l
    rcases record ⟨l, 0⟩ with same | ⟨p, d, hp, hd, -, -⟩
    · exact ⟨o, same.trans ho⟩
    · rw [ho] at hp
      cases hp
      cases hd
  · rcases record r with same | ⟨p, d, hp, hd, -, applied⟩
    · rw [same]
      exact w.records r
    · obtain ⟨bound, -, failsafe, -⟩ := hp ▸ w.records r
      rw [applied]
      refine ⟨bound, ?_, failsafe, fun _ => by simp [hd]⟩
      rintro _ ⟨⟩
      exact failsafe d hd
  · rcases record r with same | ⟨p, d, hp, -, unfed, -⟩
    · obtain ⟨i, y, hy, rfl⟩ := fed
      obtain ⟨p, hp, active, -⟩ := w.routes.ends i y hy
      rw [same, hp] at hq
      cases hq
      exact active
    · exact absurd fed unfed

theorem TablesWf.hostSilenceBegin (w : TablesWf s) : Safely TablesWf (execHostSilenceBegin s) := by
  unfold execHostSilenceBegin
  split
  · exact .refused _
  · exact .next ((w.onHli _).applyFailsafe.report _)

theorem safely_whenIdle {P : State → Prop} {k : Host.Outcome State Fault Refusal} (h : Safely P k) : Safely P (whenIdle s k) := by
  unfold whenIdle
  split
  · exact .refused _
  · exact h

theorem TablesWf.sendReady (w : TablesWf s) : Safely TablesWf (execSendReady s) := by
  refine safely_whenIdle ?_
  split
  · exact .refused _
  · exact .next (w.onHli _)

theorem TablesWf.sendReply (w : TablesWf s) : Safely TablesWf (execSendReply s) := by
  refine safely_whenIdle ?_
  split
  · exact .next (w.onHli _)
  · exact .refused _

theorem TablesWf.sendReport (w : TablesWf s) : Safely TablesWf (execSendReport s) := by
  refine safely_whenIdle ?_
  split
  · exact safely_ite (fun _ => .refused _) fun _ => .next (w.congr rfl rfl rfl)
  · exact .refused _

theorem TablesWf.frameEnd (w : TablesWf s) : Safely TablesWf (execFrameEnd s) := by
  unfold execFrameEnd
  split
  · exact .refused _
  · refine safely_ite (fun _ => .next (tablesWf_afterReset ..)) fun _ => ?_
    split <;> exact .next (w.onHli _)

/-! ## Every step -/

/-- Every command keeps the tables in agreement, and none faults. -/
theorem TablesWf.exec (w : TablesWf s) (wl : LanesWf s) (c : Instr) : Safely TablesWf (exec c s) := by
  cases hl : c.lane with
  | some l => exact w.laneEvent (wl l) hl
  | none =>
    cases c with
    | powerOnReset hrate => exact .next (tablesWf_afterReset ..)
    | pinReset hrate => exact .next (tablesWf_afterReset ..)
    | goodFrame bytes => exact w.goodFrame bytes
    | frameDiscard found => exact w.frameDiscard found
    | crcMismatch bytes => exact w.crcMismatch bytes
    | frameGapTimeout => exact w.frameGapTimeout
    | hostSilenceBegin => exact w.hostSilenceBegin
    | sendReady => exact w.sendReady
    | sendReply => exact w.sendReply
    | sendReport => exact w.sendReport
    | frameEnd => exact w.frameEnd
    | frameStartByte levels => exact w.frameStartByte levels
    | unknownRequest kind tag body =>
      exact safely_ite (fun _ => .refused _) fun _ => safely_handle (fun _ _ _ w => leaves_refuse .unknownRequest w) wl w
    | hello => exact safely_request (fun _ _ _ w => leaves_accept w) wl w ..
    | softReset => exact safely_request (fun _ _ _ w => leaves_accept (w.onHli _)) wl w ..
    | linkReset => exact safely_request keepsTables_linkReset wl w ..
    | readLinkStatus => exact safely_request keepsTables_readLinkStatus wl w ..
    | setSilenceLimit => exact safely_request keepsTables_setSilenceLimit wl w ..
    | configLane => exact safely_request keepsTables_configLane wl w ..
    | laneStart => exact safely_request (keepsTables_laneAlone keepsTables_startLane) wl w ..
    | laneHalt => exact safely_request (keepsTables_laneAlone keepsTables_haltLane) wl w ..
    | laneSleep => exact safely_request (keepsTables_laneAlone fun l s _ => keepsTables_sleepLane l s) wl w ..
    | laneWake => exact safely_request (keepsTables_laneAlone fun l s _ => keepsTables_wakeLane l s) wl w ..
    | readLaneStatus => exact safely_request keepsTables_readLaneStatus wl w ..
    | clearCapture => exact safely_request (keepsTables_laneAlone fun l s _ => keepsTables_clearCapture l s) wl w ..
    | defineSlot => exact safely_request keepsTables_defineSlot wl w ..
    | clearSlot => exact safely_request keepsTables_clearSlot wl w ..
    | writeSlot => exact safely_request keepsTables_writeSlot wl w ..
    | readSlot => exact safely_request keepsTables_readSlot wl w ..
    | setFailsafe => exact safely_request keepsTables_setFailsafe wl w ..
    | schedOpen => exact safely_request keepsTables_schedOpen wl w ..
    | schedAdd => exact safely_request keepsTables_schedAdd wl w ..
    | schedCommit => exact safely_request keepsTables_schedCommit wl w ..
    | schedDiscard => exact safely_request keepsTables_schedDiscard wl w ..
    | readSchedule => exact safely_request keepsTables_readSchedule wl w ..
    | sendOnce => exact safely_request keepsTables_sendOnce wl w ..
    | withdraw => exact safely_request keepsTables_withdraw wl w ..
    | routeSet => exact safely_request keepsTables_routeSet wl w ..
    | routeClear => exact safely_request keepsTables_routeClear wl w ..
    | readRoutes => exact safely_request (fun _ _ _ w => leaves_accept w) wl w ..
    | reportCredit => exact safely_request keepsTables_reportCredit wl w ..
    | reportAck => exact safely_request keepsTables_reportAck wl w ..
    | _ => cases hl

/-- Settles O58: the command that a step runs keeps the tables in agreement and is no fault, whatever commands wait behind it. -/
theorem tablesAgreeAndNothingFaults : Obligations.TablesAgreeAndNothingFaults := by
  intro s wl w
  have safe : Safely TablesWf (step s) := by
    unfold step
    split
    · exact .next w
    · rename_i c rest _
      exact TablesWf.exec (s := { s with pending := rest }) (w.congr rfl rfl rfl) (wl.of_lanes rfl) c
  exact ⟨fun t ht => safe.of_eq_next ht, safe.ne_fault⟩

end Sys2Proof.Machine
end

section
/-!
The state after a reset, which every invariant holds of, and entry into HOST_SILENT (R7, R21, R114, R115, R150, R169).
-/

namespace Sys2Proof.Machine

open Sys2Proof

/-! ## Resets -/

/-- Settles O2: either reset answers the state after a reset, with the rate that the pins select. -/
theorem resetsReachEveryBlock : Obligations.ResetsReachEveryBlock := by
  intro s pins rate
  exact ⟨⟨_, rfl, afterReset_afterReset .., rfl⟩, ⟨_, rfl, afterReset_afterReset .., rfl⟩⟩

theorem lanesWf_afterReset (rate : HostRate) (cause : ResetCause) (pending : List Instr) :
    LanesWf (State.afterReset rate cause pending) := fun l => State.lane_afterReset rate cause pending l ▸ LaneWf.reset

/-- After a reset the Report Queue is empty and the Host Link Interface at its starting values (R136, R150). -/
theorem linkOk_afterReset (rate : HostRate) (cause : ResetCause) (pending : List Instr) :
    LinkOk (State.afterReset rate cause pending) where
  queue :=
    { places := Nat.zero_le _
      credit := Nat.zero_le _
      lost := Nat.zero_le _
      kinds := fun _ => rfl
      consecutive := ⟨Nat.le_refl 1, (by decide : 1 ≤ 65535)⟩
      updates := List.nodup_nil
      merged := by simp [State.afterReset] }
  link :=
    { buffer := Nat.zero_le _
      replies := Nat.zero_le _
      cache := Nat.zero_le _
      tags := List.nodup_nil
      tagged := by simp [State.afterReset, Hli.reset]
      counts := ⟨Nat.zero_le _, Nat.zero_le _, Nat.zero_le _, Nat.zero_le _⟩
      timer := by simp [State.afterReset, Hli.reset] }

/-- After a reset no entry takes a place (R70, R71). -/
theorem poolWf_afterReset (rate : HostRate) (cause : ResetCause) (pending : List Instr) :
    PoolWf (State.afterReset rate cause pending) where
  total := by simp [State.afterReset, Lane.reset, Schedules.held]
  builder l := by simp [State.lane_afterReset, Lane.reset]
  staged l := by simp [State.lane_afterReset, Lane.reset]
  active l := by simp [State.lane_afterReset, Lane.reset]

/-- After a reset no handle is held (R93). -/
theorem handlesWf_afterReset (rate : HostRate) (cause : ResetCause) (pending : List Instr) :
    HandlesWf (State.afterReset rate cause pending) := by
  have none : (State.afterReset rate cause pending).handles = [] := by
    simp [State.handles_eq, State.lane_afterReset, Lane.handles, Lane.reset]
  refine ⟨⟨Nat.le_refl 1, (by decide : 1 ≤ 65535)⟩, ?_, ?_⟩ <;> rw [none]
  · exact nofun
  · exact List.nodup_nil

/-- Settles O60: the state after reset is one after a reset, of which every invariant holds. -/
theorem resetMeetsEveryInvariant : Obligations.ResetMeetsEveryInvariant := by
  obtain ⟨queue, link⟩ := linkOk_afterReset .baud115200 .power []
  exact ⟨queue, link, lanesWf_afterReset .baud115200 .power [], tablesWf_afterReset .., poolWf_afterReset .., handlesWf_afterReset ..⟩

/-! ## HOST_SILENCE_BEGIN -/

/-- A published slot that holds failsafe data and is not route-fed takes it (R21). -/
theorem slot_applyFailsafe_of_failsafe {s : State} {r : SlotRef} {p : PublishedRec} {d : List Byte}
    (hp : s.slot r = .published p) (hd : p.failsafe = some d) (unfed : ¬ RouteFed s r) :
    s.applyFailsafe.slot r = .published { p with data := some d, seq := p.seq + 1, failsafeActive := true } := by
  rw [State.slot_applyFailsafe, hp, State.routeFed_eq_false unfed]
  simp only [SlotRecord.applyFailsafe, hd, PublishedRec.put]

/-- Every other record stays (R21, R114). -/
theorem slot_applyFailsafe_of_not {s : State} {r : SlotRef}
    (h : ∀ p d, s.slot r = .published p → p.failsafe = some d → RouteFed s r) :
    s.applyFailsafe.slot r = s.slot r := by
  rw [State.slot_applyFailsafe]
  refine ((s.slot r).applyFailsafe_cases (s.routeFed r)).resolve_right ?_
  rintro ⟨p, d, hp, hd, unfed, -⟩
  simp [(s.routeFed_iff r).mpr (h p d hp hd)] at unfed

/-- Settles O5: the timer runs, so the failsafe data is applied slot by slot and the report handed over. -/
theorem hostSilenceAppliesTheFailsafe : Obligations.HostSilenceAppliesTheFailsafe := by
  intro s n running
  have entered : exec .hostSilenceBegin s = .next
      (((s.onHli fun h => { h with hostSilent := true, silenceTimer := .stopped }).applyFailsafe).report (.hostSilence true)) := by
    change execHostSilenceBegin s = _
    simp only [execHostSilenceBegin, running]
  exact ⟨_, entered, rfl, fun r p d hp hd unfed => slot_applyFailsafe_of_failsafe (s := s.onHli _) hp hd unfed,
    fun r h => slot_applyFailsafe_of_not (s := s.onHli _) h⟩

end Sys2Proof.Machine
end

section
/-!
The requests of the slots: DEFINE_SLOT, CLEAR_SLOT, WRITE_SLOT, READ_SLOT and SET_FAILSAFE, and the refusal of the sleep slot
(R1, R2, R5, R6, R17, R20, R22, R23, R171, R181 to R187, R196).
-/

namespace Sys2Proof.Machine

open Sys2Proof

variable {s : State} {l : LaneId} {k : SlotId} {data : List Byte}

/-! ## CLEAR_SLOT -/

theorem clearSlot_eq (hk : k ≠ 0) : clearSlot [byte l.val, byte k.val] s =
    if s.inUse ⟨l, k⟩ then refuse .inUse s else accept [] (s.setSlot ⟨l, k⟩ .undefined) := by
  simp only [clearSlot, withLane, laneOf_byte, withUserSlot, userSlotOf_byte hk]

/-- Settles O24: whether anything names the slot decides. -/
theorem clearSlotReturnsToUndefined : Obligations.ClearSlotReturnsToUndefined := by
  intro s tag l k hk body h
  have entry {status fields u} (hact : clearSlot body (s.onHli Hli.popBuffer) = (u.onHli Hli.popBuffer, ⟨status, fields⟩)) :
      Answers (.clearSlot tag body) ⟨0x21, tag, body⟩ s status fields u :=
    answers_of_entry h (act := clearSlot) rfl rfl (by decide) hact
  refine ⟨fun named => ?_, fun unnamed => ?_⟩
  · exact entry ((clearSlot_eq hk).trans (if_pos ((s.inUse_iff _).mpr named)))
  · exact entry ((clearSlot_eq hk).trans (if_neg (mt (s.inUse_iff _).mp unnamed)))

/-! ## WRITE_SLOT and SET_FAILSAFE -/

/-- The checks that WRITE_SLOT and SET_FAILSAFE share, by the record of the slot and the routes held (R183, R185). -/
theorem withHostPublished_cases (ref : SlotRef) (s : State) (act : PublishedRec → State × Answer) :
    (s.slot ref = .undefined → withHostPublished ref s act = refuse .undefinedSlot s)
      ∧ (∀ p, s.slot ref = .polled p → withHostPublished ref s act = refuse .wrongKind s)
      ∧ (∀ p, s.slot ref = .contended p → withHostPublished ref s act = refuse .wrongKind s)
      ∧ (∀ p, s.slot ref = .published p → RouteFed s ref → withHostPublished ref s act = refuse .routed s)
      ∧ ∀ p, s.slot ref = .published p → ¬ RouteFed s ref → withHostPublished ref s act = act p := by
  unfold withHostPublished
  refine ⟨fun h => by rw [h], fun p h => by rw [h], fun p h => by rw [h], fun p h fed => ?_, fun p h unfed => ?_⟩
  · rw [h]
    exact if_pos ((s.routeFed_iff ref).mpr fed)
  · rw [h]
    exact if_neg (mt (s.routeFed_iff ref).mp unfed)

theorem writeSlot_eq (hk : k ≠ 0) : writeSlot (byte l.val :: byte k.val :: data) s =
    withHostPublished ⟨l, k⟩ s fun p =>
      if data.length = p.length then
        accept [p.seq + 1] (s.setSlot ⟨l, k⟩ (.published { p.put data with failsafeActive := false }))
      else refuse .badValue s := by
  simp only [writeSlot, withLane, laneOf_byte, withUserSlot, userSlotOf_byte hk]

theorem bodyLengthOk_writeSlot {lane slot : Byte} (h : data.length ≤ 12) : bodyLengthOk 0x22 (lane :: slot :: data).length = true := by
  have upper : data.length + 2 ≤ 14 := Nat.add_le_add_right h 2
  simp [bodyLengthOk, upper]

/-- Settles O25: the record and the routes decide first, and then the length of the data. -/
theorem writeSlotReplacesTheData : Obligations.WriteSlotReplacesTheData := by
  intro s tag l k data hk h12 body f h
  have entry {status fields u} (hact : writeSlot body (s.onHli Hli.popBuffer) = (u.onHli Hli.popBuffer, ⟨status, fields⟩)) :
      Answers (.writeSlot tag body) f s status fields u :=
    answers_of_entry h (act := writeSlot) rfl (bodyLengthOk_writeSlot h12) (by decide) hact
  obtain ⟨undefined, polled, contended, routed, unfed⟩ := withHostPublished_cases ⟨l, k⟩ (s.onHli Hli.popBuffer) fun p =>
    if data.length = p.length then
      accept [p.seq + 1] ((s.onHli Hli.popBuffer).setSlot ⟨l, k⟩ (.published { p.put data with failsafeActive := false }))
    else refuse .badValue (s.onHli Hli.popBuffer)
  refine ⟨fun hr => ?_, fun p hp => ?_, fun p hp => ?_, fun p hp hr => ?_, fun p hp hr length => ?_, fun p hp hr length => ?_⟩
  · exact entry ((writeSlot_eq hk).trans (undefined hr))
  · exact entry ((writeSlot_eq hk).trans (polled p hp))
  · exact entry ((writeSlot_eq hk).trans (contended p hp))
  · exact entry ((writeSlot_eq hk).trans (routed p hp hr))
  · exact entry ((writeSlot_eq hk).trans ((unfed p hp hr).trans (if_neg length)))
  · exact entry ((writeSlot_eq hk).trans ((unfed p hp hr).trans (if_pos length)))

theorem setFailsafe_badOperation {operation : Byte} (hk : k ≠ 0) (h : 2 ≤ operation.toNat) :
    setFailsafe (byte l.val :: byte k.val :: operation :: data) s = refuse .badValue s := by
  simp only [setFailsafe, withLane, laneOf_byte, withUserSlot, userSlotOf_byte hk, flagOf_of_le h]

theorem setFailsafe_eq {operation : Byte} {clears : Bool} (hk : k ≠ 0) (h : flagOf operation = some clears) :
    setFailsafe (byte l.val :: byte k.val :: operation :: data) s =
      withHostPublished ⟨l, k⟩ s fun p =>
        if data.length = (if clears then 0 else p.length) then
          let p' := if clears then p.clearFailsafe else p.setFailsafe data
          accept [p'.seq, flag p'.failsafeActive] (s.setSlot ⟨l, k⟩ (.published p'))
        else refuse .badValue s := by
  simp only [setFailsafe, withLane, laneOf_byte, withUserSlot, userSlotOf_byte hk, h]

theorem exists_flagOf {b : Byte} (h : b.toNat < 2) : ∃ clears, flagOf b = some clears := by
  have binary : b = 0 ∨ b = 1 := by
    have cases : b.toNat = 0 ∨ b.toNat = 1 := by omega
    exact cases.imp (fun e => BitVec.eq_of_toNat_eq e) fun e => BitVec.eq_of_toNat_eq e
  rcases binary with rfl | rfl
  · exact ⟨false, by decide⟩
  · exact ⟨true, by decide⟩

theorem bodyLengthOk_setFailsafe {lane slot operation : Byte} (h : data.length ≤ 12) :
    bodyLengthOk 0x24 (lane :: slot :: operation :: data).length = true := by
  have upper : data.length + 3 ≤ 15 := Nat.add_le_add_right h 3
  simp [bodyLengthOk, upper]

/-- Settles O27: the operation is looked at first, then the record and the routes, and then the length of the data. -/
theorem setFailsafeSetsAndClears : Obligations.SetFailsafeSetsAndClears := by
  intro s tag operation l k data hk h12 body f c h
  have entry {status fields u} (hact : setFailsafe body (s.onHli Hli.popBuffer) = (u.onHli Hli.popBuffer, ⟨status, fields⟩)) :
      Answers c f s status fields u := answers_of_entry h (act := setFailsafe) rfl (bodyLengthOk_setFailsafe h12) (by decide) hact
  have checks (clears : Bool) := withHostPublished_cases ⟨l, k⟩ (s.onHli Hli.popBuffer) fun p =>
    if data.length = (if clears then 0 else p.length) then
      let p' := if clears then p.clearFailsafe else p.setFailsafe data
      accept [p'.seq, flag p'.failsafeActive] ((s.onHli Hli.popBuffer).setSlot ⟨l, k⟩ (.published p'))
    else refuse .badValue (s.onHli Hli.popBuffer)
  obtain ⟨-, -, -, -, sets⟩ := checks false
  obtain ⟨-, -, -, -, clears⟩ := checks true
  refine ⟨fun hop => entry (setFailsafe_badOperation hk hop), fun hop hr => ?_, fun p hop hp => ?_, fun p hop hp => ?_,
    fun p hop hp hr => ?_, ?_, ?_, ?_, ?_⟩
  · obtain ⟨b, hb⟩ := exists_flagOf hop
    obtain ⟨undefined, -⟩ := checks b
    exact entry ((setFailsafe_eq hk hb).trans (undefined hr))
  · obtain ⟨b, hb⟩ := exists_flagOf hop
    obtain ⟨-, polled, -⟩ := checks b
    exact entry ((setFailsafe_eq hk hb).trans (polled p hp))
  · obtain ⟨b, hb⟩ := exists_flagOf hop
    obtain ⟨-, -, contended, -⟩ := checks b
    exact entry ((setFailsafe_eq hk hb).trans (contended p hp))
  · obtain ⟨b, hb⟩ := exists_flagOf hop
    obtain ⟨-, -, -, routed, -⟩ := checks b
    exact entry ((setFailsafe_eq hk hb).trans (routed p hp hr))
  · rintro p hp hr (⟨rfl, length⟩ | ⟨rfl, hdata⟩)
    · exact entry ((setFailsafe_eq hk (clears := false) (by decide)).trans ((sets p hp hr).trans (if_neg length)))
    · exact entry ((setFailsafe_eq hk (clears := true) (by decide)).trans
        ((clears p hp hr).trans (if_neg (mt List.length_eq_zero_iff.mp hdata))))
  · rintro p hp hr rfl length inactive
    refine entry ((setFailsafe_eq hk (clears := false) (by decide)).trans ((sets p hp hr).trans ((if_pos length).trans ?_)))
    simp only [Bool.false_eq_true, if_false, PublishedRec.setFailsafe, inactive]
    rfl
  · rintro p hp hr rfl length active
    refine entry ((setFailsafe_eq hk (clears := false) (by decide)).trans ((sets p hp hr).trans ((if_pos length).trans ?_)))
    simp only [Bool.false_eq_true, if_false, PublishedRec.setFailsafe, PublishedRec.put, active, if_true]
    rfl
  · rintro p hp hr rfl rfl
    exact entry ((setFailsafe_eq hk (clears := true) (by decide)).trans ((clears p hp hr).trans (if_pos rfl)))

end Sys2Proof.Machine
end

section
/-!
DEFINE_SLOT, READ_SLOT, and the refusal of the sleep slot by every request that names a slot (R1, R2, R5, R23, R181, R184, R196).
-/

namespace Sys2Proof.Machine

open Sys2Proof

variable {s : State} {l : LaneId} {k : SlotId} {kind form n mode param : Byte}

/-! ## READ_SLOT -/

theorem readSlot_badSlot {slot : Byte} (h : 32 ≤ slot.toNat) : readSlot [byte l.val, slot] s = refuse .badValue s := by
  simp only [readSlot, withLane, laneOf_byte, slotOf_of_le h]

theorem readSlot_eq : readSlot [byte l.val, byte k.val] s = accept (slotFields (s.slot ⟨l, k⟩) (s.routeFed ⟨l, k⟩)) s := by
  simp only [readSlot, withLane, laneOf_byte, slotOf_byte]

theorem flag_routeFed {r : SlotRef} {fed : Byte} (h : RouteFed s r ∧ fed = 1 ∨ ¬ RouteFed s r ∧ fed = 0) :
    flag (s.routeFed r) = fed := by
  rcases h with ⟨named, rfl⟩ | ⟨unnamed, rfl⟩
  · rw [(s.routeFed_iff r).mpr named]
    rfl
  · rw [State.routeFed_eq_false unnamed]
    rfl

/-- A tag field carries the tag as a number, and 0 where there is none (R196). -/
theorem tagField_some (t : BitVec 5) : tagField (some t) = byte t.toNat :=
  BitVec.eq_of_toNat_eq (by simp [tagField, byte])

/-- Settles O26: the fields follow from the record, kind by kind. -/
theorem readSlotReturnsTheRecord : Obligations.ReadSlotReturnsTheRecord := by
  intro s tag slot l body h
  refine ⟨fun large => answers_of_entry h (act := readSlot) rfl rfl (by decide) (readSlot_badSlot large), ?_⟩
  rintro k fed rfl hfed flagField outcome bytes
  have outcomes : outcome = outcomeField := funext fun o => by cases o <;> rfl
  have datas : bytes = dataField := funext fun d => by cases d <;> rfl
  refine answers_of_entry h (act := readSlot) rfl rfl (by decide) (readSlot_eq.trans ?_)
  change (s.onHli Hli.popBuffer, Answer.mk .ok (slotFields (s.slot ⟨l, k⟩) (s.routeFed ⟨l, k⟩))) = _
  rw [outcomes, datas]
  cases s.slot ⟨l, k⟩ with
  | undefined => simp only [slotFields, flag_routeFed hfed]; rfl
  | polled r => simp only [slotFields, flag_routeFed hfed]; rfl
  | contended r =>
    simp only [slotFields, flag_routeFed hfed]
    cases r.lastTag with
    | none => rfl
    | some t => rw [tagField_some]; rfl
  | published r => simp only [slotFields, flag_routeFed hfed]; rfl

/-! ## The fields of DEFINE_SLOT (steps 3 to 7 of R181) -/

theorem lengthRuleOf_eq_some {rule : LengthRule} (h : lengthRuleOf form n = some rule) :
    n.toNat ≤ 12 ∧ (form = 0 ∧ rule = .exact n.toNat ∨ form = 1 ∧ rule = .upTo n.toNat) := by
  simp only [lengthRuleOf] at h
  split at h
  · refine ⟨‹_›, ?_⟩
    split at h
    · exact .inl ⟨‹_›, (Option.some.inj h).symm⟩
    · split at h
      · exact .inr ⟨‹_›, (Option.some.inj h).symm⟩
      · cases h
  · cases h

theorem lengthRuleOf_form {rule : LengthRule} (h : rule.bound ≤ 12) : lengthRuleOf rule.form (byte rule.bound) = some rule := by
  have bound : (byte rule.bound).toNat = rule.bound := byte_toNat_of_lt (by omega)
  rw [lengthRuleOf, bound, if_pos h]
  cases rule <;> rfl

theorem reportModeOf_eq_some {m : ReportMode} (h : reportModeOf mode = some m) : mode.toNat ≤ 2 ∧ (m = .silent → mode = 0) := by
  simp only [reportModeOf] at h
  split at h
  · subst mode
    exact ⟨by decide, fun _ => rfl⟩
  · split at h
    · subst mode
      exact ⟨by decide, by cases h; nofun⟩
    · split at h
      · subst mode
        exact ⟨by decide, by cases h; nofun⟩
      · cases h

theorem isSome_inRange {b : Byte} {low high : Nat} (h : (inRange b low high).isSome) : low ≤ b.toNat ∧ b.toNat ≤ high := by
  obtain ⟨m, hm⟩ := Option.isSome_iff_exists.mp h
  rw [inRange] at hm
  split at hm
  · assumption
  · cases hm

theorem inRange_eq {b : Byte} {low high : Nat} (hl : low ≤ b.toNat) (hh : b.toNat ≤ high) : inRange b low high = some b.toNat :=
  if_pos ⟨hl, hh⟩

/-- The kind, with the parameter, form and mode that it admits (steps 5 to 7 of R181). -/
def KindAdmits (kind form mode param : Byte) : Prop :=
  kind = 1 ∧ (param = 255 ∨ 1 ≤ param.toNat ∧ param.toNat ≤ 15) ∨ kind = 2 ∧ (param = 255 ∨ param.toNat ≤ 7)
    ∨ kind = 3 ∧ form = 0 ∧ mode = 0 ∧ param = 0

/-- What DEFINE_SLOT may ask for has every field in its list or range (R181). -/
theorem slotSpecOf_admits {spec : SlotSpec} (h : slotSpecOf kind form n mode param = some spec) :
    KindAdmits kind form mode param ∧ form.toNat ≤ 1 ∧ n.toNat ≤ 12 ∧ mode.toNat ≤ 2 := by
  simp only [slotSpecOf, Option.bind_eq_bind, Option.bind_eq_some_iff] at h
  obtain ⟨rule, hrule, m, hmode, h⟩ := h
  obtain ⟨hn, hform⟩ := lengthRuleOf_eq_some hrule
  obtain ⟨hmode2, silent⟩ := reportModeOf_eq_some hmode
  have hform1 : form.toNat ≤ 1 := by rcases hform with ⟨rfl, -⟩ | ⟨rfl, -⟩ <;> decide
  refine ⟨?_, hform1, hn, hmode2⟩
  split at h
  · refine .inl ⟨‹_›, ?_⟩
    split at h
    · exact .inl ‹_›
    · have range := Option.isSome_iff_exists.mpr ⟨_, h⟩
      rw [Option.isSome_map] at range
      exact .inr (isSome_inRange range)
  · split at h
    · refine .inr (.inl ⟨‹_›, ?_⟩)
      split at h
      · exact .inl ‹_›
      · have range := Option.isSome_iff_exists.mpr ⟨_, h⟩
        rw [Option.isSome_map] at range
        exact .inr (isSome_inRange range).2
    · split at h
      · split at h
        · split at h
          · rename_i both
            obtain ⟨hm, hparam⟩ := both
            rcases hform with ⟨hform, -⟩ | ⟨-, hrule⟩
            · exact .inr (.inr ⟨‹_›, hform, silent hm, hparam⟩)
            · cases hrule
          · cases h
        · cases h
      · cases h

theorem slotSpecOf_polled {rule : LengthRule} {m : ReportMode} {limit : Nat} (bound : rule.bound ≤ 12)
    (h : param = 255 ∧ limit = 3 ∨ param ≠ 255 ∧ 1 ≤ param.toNat ∧ param.toNat ≤ 15 ∧ limit = param.toNat) :
    slotSpecOf 1 rule.form (byte rule.bound) m.code param = some (.polled rule m limit) := by
  simp only [slotSpecOf, lengthRuleOf_form bound, reportModeOf_code, Option.bind_eq_bind, Option.bind_some, if_true]
  rcases h with ⟨rfl, rfl⟩ | ⟨given, low, high, rfl⟩
  · rfl
  · rw [if_neg given, inRange_eq low high]
    rfl

theorem slotSpecOf_contended {rule : LengthRule} {m : ReportMode} {budget : Nat} (bound : rule.bound ≤ 12)
    (h : param = 255 ∧ budget = 3 ∨ param ≠ 255 ∧ param.toNat ≤ 7 ∧ budget = param.toNat) :
    slotSpecOf 2 rule.form (byte rule.bound) m.code param = some (.contended rule m budget) := by
  simp only [slotSpecOf, lengthRuleOf_form bound, reportModeOf_code, Option.bind_eq_bind, Option.bind_some,
    (by decide : ¬ (2 : Byte) = 1), if_false, if_true]
  rcases h with ⟨rfl, rfl⟩ | ⟨given, high, rfl⟩
  · rfl
  · rw [if_neg given, inRange_eq (Nat.zero_le _) high]
    rfl

theorem slotSpecOf_published {length : Nat} (bound : length ≤ 12) :
    slotSpecOf 3 0 (byte length) ReportMode.silent.code 0 = some (.published length) := by
  have rule : lengthRuleOf 0 (byte length) = some (.exact length) := lengthRuleOf_form (rule := .exact length) bound
  simp only [slotSpecOf, rule, reportModeOf_code, Option.bind_eq_bind, Option.bind_some]
  rfl

/-! ## DEFINE_SLOT -/

/-- A slot that may not be named and a field that is out of its list or range are refused with one status (R181). -/
theorem defineSlot_badValue {slot : Byte} (h : slotSpecOf kind form n mode param = none) :
    defineSlot [byte l.val, slot, kind, form, n, mode, param] s = refuse .badValue s := by
  simp only [defineSlot, withLane, laneOf_byte, withUserSlot, h]
  split <;> rfl

theorem defineSlot_eq {spec : SlotSpec} (hk : k ≠ 0) (h : slotSpecOf kind form n mode param = some spec) :
    defineSlot [byte l.val, byte k.val, kind, form, n, mode, param] s =
      if s.inUse ⟨l, k⟩ then refuse .inUse s else accept [] (s.setSlot ⟨l, k⟩ spec.record) := by
  simp only [defineSlot, withLane, laneOf_byte, withUserSlot, userSlotOf_byte hk, h]

/-- Settles O23: the fields decide first, and then whether anything names the slot. -/
theorem defineSlotStartsAfresh : Obligations.DefineSlotStartsAfresh := by
  refine ⟨?_, ?_⟩
  · intro s tag l k kind form n mode param body outside h
    have none : slotSpecOf kind form n mode param = none := by
      cases spec : slotSpecOf kind form n mode param with
      | none => rfl
      | some spec' => exact absurd (slotSpecOf_admits spec) outside
    exact answers_of_entry h (act := defineSlot) rfl rfl (by decide) (defineSlot_badValue none)
  · intro s tag l k kind rule mode param record hk bound kinds body h
    have spec : ∃ spec : SlotSpec, spec.record = record ∧ slotSpecOf kind rule.form (byte rule.bound) mode.code param = some spec := by
      rcases kinds with ⟨rfl, limit, hlimit, rfl⟩ | ⟨rfl, budget, hbudget, rfl⟩ | ⟨rfl, rfl, rfl, length, rfl, rfl⟩
      · exact ⟨_, rfl, slotSpecOf_polled bound hlimit⟩
      · exact ⟨_, rfl, slotSpecOf_contended bound hbudget⟩
      · exact ⟨_, rfl, slotSpecOf_published bound⟩
    obtain ⟨spec, rfl, hspec⟩ := spec
    have entry {status fields u} (hact : defineSlot body (s.onHli Hli.popBuffer) = (u.onHli Hli.popBuffer, ⟨status, fields⟩)) :
        Answers (.defineSlot tag body) ⟨0x20, tag, body⟩ s status fields u :=
      answers_of_entry h (act := defineSlot) rfl rfl (by decide) hact
    refine ⟨fun named => ?_, fun unnamed => ?_⟩
    · exact entry ((defineSlot_eq hk hspec).trans (if_pos ((s.inUse_iff _).mpr named)))
    · exact entry ((defineSlot_eq hk hspec).trans (if_neg (mt (s.inUse_iff _).mp unnamed)))

/-! ## The sleep slot (R2) -/

theorem withUserSlot_none {b : Byte} {act : SlotId → State × Answer} (h : userSlotOf b = none) :
    withUserSlot b s act = refuse .badValue s := by
  rw [withUserSlot, h]

/-- A request row that names a slot of 1 to 31 looks at it behind the lane, in a body of the length that R171 gives (R2). -/
theorem catalogueEntry_badSlot {c : Instr} {f : Frame} {slot : Byte} {rest : List Byte} (hf : c.frame = some f)
    (hc : c.namesUserSlot = true) (hlen : bodyLengthOk f.kind f.body.length = true) (hb : f.body = byte l.val :: slot :: rest)
    (hs : userSlotOf slot = none) : catalogueEntry c f.body s = refuse .badValue s := by
  have lane {act : LaneId → State × Answer} : withLane (byte l.val) s act = act l := by rw [withLane, laneOf_byte]
  rw [hb] at hlen ⊢
  cases c
  case defineSlot =>
    cases hf
    have length : rest.length = 5 := by simpa [bodyLengthOk] using hlen
    match rest, length with
    | [_, _, _, _, _], _ => exact lane.trans (withUserSlot_none hs)
  case clearSlot =>
    cases hf
    have length : rest.length = 0 := by simpa [bodyLengthOk] using hlen
    match rest, length with
    | [], _ => exact lane.trans (withUserSlot_none hs)
  case writeSlot | sendOnce => exact lane.trans (withUserSlot_none hs)
  case setFailsafe =>
    cases hf
    have atLeast : 1 ≤ rest.length := by simp [bodyLengthOk] at hlen; omega
    match rest, atLeast with
    | _ :: _, _ => exact lane.trans (withUserSlot_none hs)
  all_goals cases hc

/-- Settles O12: the slot byte comes right behind the lane, in ROUTE_SET behind the lanes, and in SCHED_ADD behind the entries that pass. -/
theorem theSleepSlotIsRefused : Obligations.TheSleepSlotIsRefused := by
  refine ⟨?_, ?_, ?_⟩
  · intro s c f l slot rest hf names h hlen hb hs
    have hc : ∀ kind tag body, c ≠ .unknownRequest kind tag body := by rintro _ _ _ rfl; cases names
    refine refuses_of_act h (exec_of_catalogue hf hc s) ?_ nofun
    exact (if_pos hlen).trans (catalogueEntry_badSlot hf names hlen hb (userSlotOf_eq_none hs))
  · intro s tag i a b src dst mode body h hs
    have lanes : (byte a.val).toNat < 4 ∧ (byte b.val).toNat < 4 := by
      rw [byte_toNat_of_lt (by omega), byte_toNat_of_lt (by omega)]
      exact ⟨a.isLt, b.isLt⟩
    have index : (byte i.val).toNat < 16 := by
      rw [byte_toNat_of_lt (by omega)]
      exact i.isLt
    refine answers_of_entry h (act := routeSet) rfl rfl (by decide) (routeSet_badSlot index lanes ?_)
    rintro ⟨src0, src32, dst0, dst32⟩
    rcases hs with src | src | dst | dst
    · exact src0 src
    · exact Nat.not_le.mpr src32 src
    · exact dst0 dst
    · exact Nat.not_le.mpr dst32 dst
  · intro s tag l held before slot timing rest body h hlen hb passes hs
    have fails : entryOf (s.onHli Hli.popBuffer) l slot timing = .error .badValue := by
      rw [entryOf, userSlotOf_eq_none hs]
    exact answers_of_entry h (act := schedAdd) rfl hlen (by decide)
      (schedAdd_fails (s := s.onHli Hli.popBuffer) hb (entriesOf_fails (s := s.onHli Hli.popBuffer) passes fails rest))

end Sys2Proof.Machine
end

section
/-!
The choice of the next transaction, branch by branch, and the end of a pause (R14, R19, R79 to R82, R85, R87 to R90).
-/

namespace Sys2Proof.Machine

open Sys2Proof

variable {s : State} {l : LaneId} {L : Lane}

/-! ## The choice does not depend on the rounds that it may still begin -/

/-- What follows the entries is the same with one round more, where the round that it would end is (steps 4 to 6 of R87). -/
theorem chooseFrom_succ {n : Nat} {u : State}
    (hround : u.busy l = false → L.oneShots = [] → L.schedules.active ≠ [] → L.round.pause = none →
      chooseIn (n + 1) l (endRound l u) = chooseIn n l (endRound l u)) :
    chooseFrom (n + 1) l L u = chooseFrom n l L u := by
  unfold chooseFrom
  split
  · rfl
  · rename_i idle
    split
    · rfl
    · rename_i none
      split
      · rename_i round
        obtain ⟨active, pause⟩ : L.schedules.active ≠ [] ∧ L.round.pause = Option.none := by simpa using round
        exact hround (by simpa using idle) (by simpa using none) active pause
      · rfl

/-- A choice that comes to an end within a number of rounds is the same with one round more (R80, R87). -/
theorem chooseIn_succ_eq (n : Nat) {s : State} (ht : (s.lane l).transaction = none)
    (hn : (s.lane l).Settled ∨ 1 ≤ n ∧ (s.lane l).round.worked = false ∨ 2 ≤ n) : chooseIn (n + 1) l s = chooseIn n l s := by
  induction n generalizing s with
  | zero =>
    obtain ⟨none, waits⟩ : (s.lane l).oneShots = [] ∧ ((s.lane l).schedules.active = [] ∨ (s.lane l).round.pause.isSome) :=
      (hn.resolve_right (by omega)).resolve_left (by simp [ht])
    rw [chooseIn_waits rfl ht none waits, chooseIn_waits rfl ht none waits]
  | succ n ih =>
    rw [chooseIn_succ rfl, chooseIn_succ rfl]
    refine congrArg _ (chooseFrom_succ fun hb ho ha hpause => ?_)
    rw [hpause] at hb ⊢
    obtain ⟨p, hp⟩ := considerEntries_idle l _ s hb (by simp [State.busy, ht])
    refine ih ?_ ?_ <;> rw [State.lane_endRound]
    · exact (congrArg Lane.transaction hp).trans ht
    · change ((considerEntries l _ s).lane l).roundEnded.Settled ∨ _
      rw [hp]
      rcases hn with hs | ⟨-, hw⟩ | hn
      · simp [Lane.Settled, ht, ha, hpause, ho] at hs
      · exact .inl (Lane.settled_roundEnded ho hw)
      · exact .inr (.inl ⟨by omega, rfl⟩)

/-! ## A one-shot begins -/

/-- The transaction of a one-shot (R88, R96). -/
theorem beginOneShot_eq {o : OneShot} {rest : List OneShot} {kind : CallKind} (h : s.lane l = L) (ho : L.oneShots = o :: rest)
    (hk : (s.slot ⟨l, o.slot⟩).callKind = some kind) :
    beginOneShot l s = (s.setLane l
      { L with oneShots := rest, round := { L.round with pause := none, streak := bump 2 L.round.streak } }).begin l
        { Transaction.begin .oneShot o.slot kind with oneShot := some (o.handle, o.kind), sendData := o.data } := by
  subst h
  simp only [beginOneShot, ho, hk, Option.getD_some, State.onLane]

/-- The oldest one-shot begins below the streak, in a pause, and with no entry left (steps 2 and 5 of R87). -/
theorem choose_eq_beginOneShot (h : s.lane l = L) (ht : L.transaction = none) (ho : L.oneShots ≠ [])
    (turn : L.round.streak < 2 ∨ L.round.pause.isSome ∨ L.schedules.active.length ≤ L.round.position) :
    choose l s = beginOneShot l s := by
  rw [choose, chooseIn_succ h]
  by_cases streak : L.round.streak < 2
  · exact if_pos (by simp [ho, streak])
  · rw [if_neg (by simp [streak])]
    have unmoved : (if L.round.pause.isNone then considerEntries l (L.schedules.active.drop L.round.position) s else s) = s := by
      rcases turn.resolve_left streak with pause | past
      · exact if_neg (by simpa [Option.isSome_iff_ne_none] using pause)
      · rw [List.drop_eq_nil_of_le past]
        exact ite_self _
    rw [unmoved, chooseFrom, if_neg (by simp [State.busy, h, ht]), if_pos (by simp [ho])]

/-! ## An entry begins or is passed -/

section

variable {e : Entry} {rest : List Entry}

theorem considerEntries_of_not_due (h : e.due (s.lane l).round.counter = false) :
    considerEntries l (e :: rest) s = considerEntries l rest (advancePosition l s) :=
  if_neg (by rw [h]; nofun)

variable (h : e.due (s.lane l).round.counter = true)

include h

theorem considerEntries_skipped {r : PolledRec} (hr : s.slot ⟨l, e.slot⟩ = .polled r) (absent : r.presence = .absent)
    (skips : r.skipCount + 1 < (s.lane l).config.probeInterval) :
    considerEntries l (e :: rest) s =
      considerEntries l rest ((advancePosition l s).setSlot ⟨l, e.slot⟩ (.polled { r with skipCount := r.skipCount + 1 })) := by
  simp only [considerEntries, if_pos h, hr, if_pos (And.intro absent skips)]

theorem considerEntries_polled {r : PolledRec} (hr : s.slot ⟨l, e.slot⟩ = .polled r)
    (responds : ¬ (r.presence = .absent ∧ r.skipCount + 1 < (s.lane l).config.probeInterval)) :
    considerEntries l (e :: rest) s = beginScheduled l e.slot .polled none (advancePosition l s) := by
  simp only [considerEntries, if_pos h, hr, if_neg responds]

theorem considerEntries_contended {r : ContendedRec} (hr : s.slot ⟨l, e.slot⟩ = .contended r) :
    considerEntries l (e :: rest) s = beginScheduled l e.slot .contended (some r.budget) (advancePosition l s) := by
  simp only [considerEntries, if_pos h, hr]

theorem considerEntries_published {p : PublishedRec} (hp : s.slot ⟨l, e.slot⟩ = .published p) (hd : p.data ≠ none) :
    considerEntries l (e :: rest) s = beginScheduled l e.slot .published none (advancePosition l s) := by
  simp only [considerEntries, if_pos h, hp, if_neg hd]

theorem considerEntries_withoutData {p : PublishedRec} (hp : s.slot ⟨l, e.slot⟩ = .published p) (hd : p.data = none) :
    considerEntries l (e :: rest) s = considerEntries l rest (advancePosition l s) := by
  simp only [considerEntries, if_pos h, hp, if_pos hd]

end

section

variable {e : Entry} (h1 : L.oneShots = [] ∨ 2 ≤ L.round.streak) (hp : L.round.pause = none)

include h1 hp

theorem choose_eq_considered (h : s.lane l = L) (he : L.schedules.active[L.round.position]? = some e) :
    choose l s = chooseFrom 2 l L (considerEntries l (e :: L.schedules.active.drop (L.round.position + 1)) s) := by
  obtain ⟨within, rfl⟩ := List.getElem?_eq_some_iff.mp he
  rw [choose_turns_to_schedule h h1 hp, ← List.drop_eq_getElem_cons within]

/-- The choice goes on behind an entry that has been passed (R79, R90). -/
theorem choose_of_passed {u : State} (h : u.lane l = L.advanced) :
    choose l u = chooseFrom 2 l L (considerEntries l (L.schedules.active.drop (L.round.position + 1)) u) := by
  rw [choose_turns_to_schedule h h1 hp]
  exact chooseFrom_congr _ rfl rfl rfl

end

theorem chooseFrom_begun {n : Nat} (u : State) (slot : SlotId) (kind : CallKind) (allowance : Option Nat) :
    chooseFrom n l L (beginScheduled l slot kind allowance u) = beginScheduled l slot kind allowance u := by
  rw [chooseFrom, if_pos]
  simp [State.busy, beginScheduled, Lane.begun]

/-- A SCHEDULED transaction, begun behind the round position (R47, R79, R88). -/
theorem beginScheduled_advanced (slot : SlotId) (kind : CallKind) (allowance : Option Nat) :
    beginScheduled l slot kind allowance (advancePosition l s) =
      s.setLane l
        { s.lane l with
          round := { (s.lane l).round with position := (s.lane l).round.position + 1, streak := 0 }
          transaction := some { Transaction.begin .scheduled slot kind with allowance }
          line := { (s.lane l).line with position := some (0, 0) } } := by
  simp [beginScheduled, advancePosition, State.begin, State.onLane, Lane.onRound]

/-! ## A round ends -/

/-- With no entry left the round ends, and the choice is made again (R80, R87). -/
theorem choose_eq_choose_endRound (h : s.lane l = L) (ht : L.transaction = none) (ho : L.oneShots = []) (hp : L.round.pause = none)
    (ha : L.schedules.active ≠ []) (past : L.schedules.active.length ≤ L.round.position) :
    choose l s = choose l (endRound l s) := by
  have ended : choose l s = chooseIn 2 l (endRound l s) := by
    rw [choose_turns_to_schedule h (.inl ho) hp, List.drop_eq_nil_of_le past, considerEntries, chooseFrom,
      if_neg (by simp [State.busy, h, ht]), if_neg (by simp [ho]), if_pos (by simp [ha, hp])]
  have none : ((endRound l s).lane l).transaction = none := by
    rw [State.lane_endRound, h]
    exact ht
  exact ended.trans (chooseIn_succ_eq 2 none (.inr (.inr (Nat.le_refl 2)))).symm

/-! ## The obligation -/

theorem Entry.due_iff (e : Entry) (round : BitVec 16) : e.due round = true ↔ round.toNat % 2 ^ e.exponent.val = e.phase := by
  simp [Entry.due, Entry.divider]

/-- Settles O48: the branches of the choice follow each other as in the manual. -/
theorem theChoiceGoesInOrder : Obligations.TheChoiceGoesInOrder := by
  refine ⟨?_, fun s l ht => ?_⟩
  · intro s l n running pause
    change execPauseComplete l s = _
    rw [execPauseComplete, inCondition, if_pos running, pause]
    rfl
  intro L begins moved
  refine ⟨?_, ?_, ?_, ?_⟩
  · intro o rest kind ho hk turn
    have kind : (s.slot ⟨l, o.slot⟩).callKind = some kind := by
      cases hr : s.slot ⟨l, o.slot⟩ <;> rw [hr] at hk
      · cases hk
      all_goals exact congrArg some hk.symm
    rw [choose_eq_beginOneShot rfl ht (by rw [ho]; nofun) turn, beginOneShot_eq rfl ho kind]
    simp only [State.begin, State.onLane, State.lane_setLane_self, State.setLane_setLane]
    rfl
  · intro e h1 hp he due passes called
    have advanced : advancePosition l s = passes := rfl
    have passed {u : State} (hu : u.lane l = L.advanced) := choose_of_passed h1 hp hu
    have here : passes.lane l = L.advanced := State.lane_setLane_self ..
    have isDue : due → e.due (s.lane l).round.counter = true := (e.due_iff _).mpr
    rw [choose_eq_considered h1 hp rfl he]
    refine ⟨fun idle => ?_, fun r hd hr present => ?_, fun r hd hr absent skips => ?_, fun r hd hr => ?_, fun p hd hr held => ?_,
      fun p hd hr lacking => ?_⟩
    · rw [considerEntries_of_not_due (Bool.eq_false_iff.mpr (mt (e.due_iff _).mp idle)), advanced, passed here]
    · have responds : ¬ (r.presence = .absent ∧ r.skipCount + 1 < (s.lane l).config.probeInterval) := by
        rintro ⟨absent, skips⟩
        rcases present with present | probes
        · rw [absent] at present
          cases present
        · exact Nat.not_le.mpr skips probes
      rw [considerEntries_polled (isDue hd) hr responds, chooseFrom_begun, beginScheduled_advanced]
      rfl
    · rw [considerEntries_skipped (isDue hd) hr absent skips, advanced]
      exact (passed (u := passes.setSlot _ _) here).symm
    · rw [considerEntries_contended (isDue hd) hr, chooseFrom_begun, beginScheduled_advanced]
      rfl
    · rw [considerEntries_published (isDue hd) hr held, chooseFrom_begun, beginScheduled_advanced]
      rfl
    · rw [considerEntries_withoutData (isDue hd) hr lacking, advanced, passed here]
  · intro ho hp ha past
    have pauses : (if L.round.worked || L.swapped.active.isEmpty then none else some 0) =
        if L.round.worked ∨ L.swapped.active = [] then none else some 0 := if_congr (by simp) rfl rfl
    rw [choose_eq_choose_endRound rfl ht ho hp ha past, endRound_eq rfl, pauses]
  · intro ho waits
    exact chooseIn_waits rfl ht ho waits

end Sys2Proof.Machine
end

section
/-!
The phases of a transaction up to the response or the sending, the cells, and the response cells that pass their checks (R3, R18, R25, R26,
R29, R31 to R37, R40, R42, R48 to R50, R197).
-/

namespace Sys2Proof.Machine

open Sys2Proof

variable {s : State} {l : LaneId} {t : Transaction}

/-! ## The phases from the gap on -/

/-- A cell begins with a dominant bit, so what was sent ahead of it does not matter to the recessive bits at its end (R26). -/
theorem recessiveTail_append (before : List Bool) (v : Byte) : recessiveTail (before ++ cellLevels v) = recessiveTail (cellLevels v) := by
  simp [recessiveTail, cellLevels, cellBits, List.takeWhile_append]

theorem recessiveTail_call (hp : t.phase = .call) : recessiveTail t.levelsSent = recessiveTail (cellLevels (numberCell t.slot.val)) := by
  rw [levelsSent_call hp, recessiveTail_append]

/-- A start bit that reads dominant begins the cell awaited, and one that reads recessive is ignored (R32, R34). -/
theorem execResponseStartBit_eq (ht : (s.lane l).transaction = some t)
    (hp : t.phase = .await ∨ t.phase = .receive ∧ (s.lane l).line.cell = none) (start : Samples 1) :
    execResponseStartBit l start s =
      if start.dominant (s.lane l).config.sampleFilter then .next (startCell l t s) else .next s := by
  have awaits : (s.lane l).awaitsEdge t = true := by
    rcases hp with hp | ⟨hp, hc⟩
    · simp [Lane.awaitsEdge, hp]
    · simp [Lane.awaitsEdge, hp, hc]
  simp only [execResponseStartBit, ht, awaits, if_true]

/-- Settles O39: each phase goes on as its event gives, and the slot of a scheduled publish gives its data as the call begins. -/
theorem theCallFollowsTheGap : Obligations.TheCallFollowsTheGap := by
  intro s l t ht L
  refine ⟨fun hp => ?_, fun hp hk => ?_, fun hp hk => ?_, fun start hp => ⟨fun dominant => ?_, fun recessive => ?_⟩⟩
  · exact inPhase_eq ht hp
  · refine (inPhase_eq ht hp).trans ?_
    simp only [completeCall, hk]
    rfl
  · refine (inPhase_eq ht hp).trans ?_
    rw [← recessiveTail, ← recessiveTail_call hp]
    cases kind : t.kind with
    | published => exact absurd kind hk
    | polled => simp only [completeCall, kind]; rfl
    | contended => simp only [completeCall, kind]; rfl
  · exact (execResponseStartBit_eq ht hp start).trans (if_pos (dominant_of_zero dominant))
  · exact (execResponseStartBit_eq ht hp start).trans (if_neg (by rw [dominant_of_one recessive]; nofun))

/-! ## The layouts of the cells -/

/-- With the filter on, a bit is at the level that two of its three samples have (R25). -/
theorem levels_true {w : Nat} (x : Samples w) (i : Nat) :
    (x.levels true).getLsbD i
      = decide (2 ≤ (x.early.getLsbD i).toNat + (x.centre.getLsbD i).toNat + (x.late.getLsbD i).toNat) := by
  have majority : ∀ a b c : Bool, ((a && b) || (b && c) || (a && c)) = decide (2 ≤ a.toNat + b.toNat + c.toNat) := by decide
  simp [Samples.levels, majority]

theorem cellLevels_eq : ∀ v : Byte, cellLevels v = false :: (List.range 8).map v.getLsbD ++ [true] := by decide +kernel

theorem numberCell_eq (n : Nat) : numberCell n = BitVec.ofNat 3 ((n * 5 + 3) % 8) ++ BitVec.ofNat 5 n := by
  have low : ∀ m : Fin 32, numberCell m = BitVec.ofNat 3 ((m * 5 + 3) % 8) ++ BitVec.ofNat 5 m := by decide
  have cell : numberCell (n % 32) = numberCell n := by
    simp only [numberCell]
    congr 2 <;> omega
  have check : (n % 32 * 5 + 3) % 8 = (n * 5 + 3) % 8 := by omega
  have number : BitVec.ofNat 5 (n % 32) = BitVec.ofNat 5 n := BitVec.eq_of_toNat_eq (by simp)
  have layout := low ⟨n % 32, Nat.mod_lt _ (by decide)⟩
  rwa [cell, check, number] at layout

theorem headerCell_eq (length : Nat) (attention : Bool) :
    headerCell length attention = (~~~ BitVec.ofNat 3 length) ++ BitVec.ofBool attention ++ BitVec.ofNat 4 length := by
  have low : ∀ (m : Fin 16) (attention : Bool),
      headerCell m attention = (~~~ BitVec.ofNat 3 m) ++ BitVec.ofBool attention ++ BitVec.ofNat 4 m := by decide
  have cell : headerCell (length % 16) attention = headerCell length attention := by
    simp only [headerCell]
    congr 2 <;> omega
  have number3 : BitVec.ofNat 3 (length % 16) = BitVec.ofNat 3 length := BitVec.eq_of_toNat_eq (by simp)
  have number4 : BitVec.ofNat 4 (length % 16) = BitVec.ofNat 4 length := BitVec.eq_of_toNat_eq (by simp)
  have layout := low ⟨length % 16, Nat.mod_lt _ (by decide)⟩ attention
  rwa [cell, number3, number4] at layout

theorem crc8_eq (slot : SlotId) (cells : List Byte) :
    crc8 slot cells
      = (cells.flatMap fun b => (List.range 8).map fun i => b.getLsbD (7 - i)).foldl
          (fun (crc : Byte) bit => if crc.msb = bit then crc <<< 1 else (crc <<< 1) ^^^ 0x1D#8) (0xFF#8 ^^^ BitVec.ofNat 8 slot.val) := by
  have bytes : crc8Byte = fun c b => ((List.range 8).map fun i => b.getLsbD (7 - i)).foldl
      (fun (crc : Byte) bit => if crc.msb = bit then crc <<< 1 else (crc <<< 1) ^^^ 0x1D#8) c :=
    funext fun c => funext fun b => crc8Byte_eq c b
  rw [List.foldl_flatMap, ← bytes]
  rfl

/-! ## The cell awaited -/

/-- The tag cell is behind a contended call, and behind the tag cell alone does anything else come (R35, R49). -/
theorem awaitsTag_eq_false_iff : t.awaitsTag = false ↔ (t.kind = .contended → t.tag.isSome) := by
  rw [← Bool.not_eq_true, awaitsTag_iff, not_and, Option.isSome_iff_ne_none]

theorem cellIndex_of_no_header (h : t.header = none) : t.cellIndex = if t.tag = none then 1 else 2 := by
  rw [Transaction.cellIndex, h]
  cases t.tag <;> rfl

theorem cellIndex_of_header {h : Header} (hh : t.header = some h) :
    t.cellIndex = (if t.kind = .contended then 3 else 2) + t.data.length := by
  rw [Transaction.cellIndex, hh]

theorem LengthRule.admits_iff (n m : Nat) :
    ((LengthRule.exact n).admits m = true ↔ m = n) ∧ ((LengthRule.upTo n).admits m = true ↔ m ≤ n) := by
  simp [LengthRule.admits]

/-! ## Response cells that pass their checks -/

/-- The run behind a cell with a recessive stop bit is that of the levels that would have been sent (R26). -/
theorem cellEndRun_of_recessive : ∀ v : Byte, cellEndRun (1#1 ++ v) = ((cellLevels v).reverse.takeWhile id).length := by decide +kernel

/-- The line behind a response cell with a recessive stop bit, at a receive position (R26, R42). -/
def LineState.behindCell (x : LineState) (v : Byte) (index bit : Nat) : LineState :=
  { x with
    dominantRun := 0, recessiveRun := ((cellLevels v).reverse.takeWhile id).length, position := some (index, bit), waited := 0
    cell := none }

/-- The line behind a response cell, before its check gives the receive position (R26). -/
def LineState.tookCell (x : LineState) (v : Byte) : LineState :=
  { x with dominantRun := 0, recessiveRun := cellEndRun (1#1 ++ v), waited := 0, cell := none }

section

variable {awaited : Transaction → Bool} {cell : Samples 9} {v : Byte}
  {check : LaneId → Transaction → Byte → State → Host.Outcome State Fault Refusal} (ht : (s.lane l).transaction = some t)
  (hp : t.phase = .receive) (hlevels : cell.levels (s.lane l).config.sampleFilter = 1#1 ++ v) (hfits : (s.lane l).line.fits (1#1 ++ v))

include ht hp hlevels hfits

/-- A response cell that is awaited goes to its check (R33). -/
theorem receiveCell_eq_check (ha : awaited t = true) :
    receiveCell l awaited cell s check =
      check l t v (s.setLane l { s.lane l with line := (s.lane l).line.tookCell v }) := by
  rw [receiveCell_eq ht hp ha (by rw [hlevels]; exact hfits), hlevels, takeCell_of_recessive]
  rfl

/-- A cell that its check holds leaves the changed transaction at the next receive position (R33, R42). -/
theorem receiveCell_held {t' : Transaction} {index : Nat} (ha : awaited t = true)
    (held : ∀ u : State, u.slots = s.slots → check l t v u = .next (continueWith l t' index u)) :
    receiveCell l awaited cell s check = .next (s.setLane l
      { s.lane l with transaction := some t', line := (s.lane l).line.behindCell v index 0 }) := by
  rw [receiveCell_eq_check ht hp hlevels hfits ha, held _ (State.slots_setLane ..), continueWith]
  simp only [State.onLane, State.lane_setLane_self, State.setLane_setLane, LineState.tookCell, cellEndRun_of_recessive]
  rfl

end

theorem takeCheck_contended (hk : t.kind = .contended) (v : Byte) (s : State) :
    takeCheck l t v s = .next (s.onLane l fun L =>
      { L with
        transaction := some { t with phase := .window, checkMatched := v == t.responseCrc }
        line := { L.line with position := some (t.cellIndex, 9) } }) := if_pos hk

/-- Settles O40: the layouts cell by cell, and each check by the cell that passes it. -/
theorem cellsThatPassAreHeld : Obligations.CellsThatPassAreHeld := by
  refine ⟨fun w x => ⟨rfl, levels_true x⟩, cellLevels_eq, numberCell_eq, headerCell_eq, crc8_eq, fun _ _ => rfl, ?_,
    LengthRule.admits_iff, ?_⟩
  · intro t begun
    have behindTag : t.awaitsTag = false ↔ begun := awaitsTag_eq_false_iff
    refine ⟨?_, ?_, ?_, ?_, cellIndex_of_no_header, fun h hh => ⟨cellIndex_of_header hh, fun htag => ?_, fun n htag => ?_⟩⟩
    · rw [← behindTag, Bool.not_eq_false]
    · rw [← behindTag, awaitsHeader_iff]
    · rw [← behindTag, awaitsData_iff]
    · rw [← behindTag, awaitsCheck_iff]
    · simp [Transaction.responseCrc, hh, htag]
    · simp [Transaction.responseCrc, hh, htag]
  · intro s l t cell v ht hp hlevels hfits L line
    refine ⟨fun n ha hv hn => ?_, fun length attention rule ha hv hlength hrule admits => ?_, fun ha => ?_, fun ha hk => ?_⟩
    · refine receiveCell_held ht hp hlevels hfits ha fun u _ => ?_
      rw [takeTag, hv, tagOfCell_numberCell n hn]
    · refine receiveCell_held ht hp hlevels hfits ha fun u slots => ?_
      have rule : (u.slot ⟨l, t.slot⟩).lengthRule = some rule := by rw [State.slot, slots]; exact hrule
      rw [takeHeader, hv, headerOfCell_headerCell length hlength attention]
      simp only [rule, admits, if_true]
    · exact receiveCell_held ht hp hlevels hfits ha fun _ _ => rfl
    · refine (receiveCell_eq_check ht hp hlevels hfits ha).trans ?_
      rw [takeCheck_contended hk]
      simp only [State.onLane, State.lane_setLane_self, State.setLane_setLane, LineState.tookCell, cellEndRun_of_recessive]
      rfl

end Sys2Proof.Machine
end

section
/-!
What an ending leaves of the record of its own slot, and in which order it reports (R8 to R16, R53, R56, R99).
-/

namespace Sys2Proof.Machine

open Sys2Proof

variable {l : LaneId} {s u v : State} {t : Transaction} {o : TxOutcome} {ref q : SlotRef} {d : Delivery} {p : PendingResult}
  {followUp : Bool}

/-! ## The reports behind the stages -/

/-- Reports of the lane engine alone have been handed over (R85, R131). -/
def EngineReports (l : LaneId) (s t : State) : Prop := ∃ more, (∀ r ∈ more, r.ofEngine l = true) ∧ Reported s t more

theorem EngineReports.of_reports (h : u.reports = s.reports) : EngineReports l s u := ⟨[], nofun, h⟩

theorem EngineReports.refl (l : LaneId) (s : State) : EngineReports l s s := .of_reports rfl

theorem EngineReports.trans (h : EngineReports l s u) (k : EngineReports l u v) : EngineReports l s v := by
  obtain ⟨first, hfirst, reported⟩ := h
  obtain ⟨rest, hrest, behind⟩ := k
  exact ⟨first ++ rest, fun r hr => (List.mem_append.mp hr).elim (hfirst r) (hrest r), reported.append behind⟩

theorem EngineReports.ite {c : Prop} [Decidable c] (hu : EngineReports l s u) (hv : EngineReports l s v) :
    EngineReports l s (if c then u else v) := by
  split <;> assumption

theorem ofEngine_swapReports (L : Lane) : ∀ r ∈ L.swapReports l, r.ofEngine l = true := by
  unfold Lane.swapReports
  split <;> simp [Report.ofEngine]

theorem ofEngine_completions (L : Lane) (outcome : Completion) : ∀ r ∈ L.completions l outcome, r.ofEngine l = true := by
  simp [Lane.completions, Report.ofEngine]

theorem ofEngine_laneChange {old new : Condition} {cause : Cause} {rest : List Report} (h : ∀ r ∈ rest, r.ofEngine l = true) :
    ∀ r ∈ Report.laneChange l old new cause :: rest, r.ofEngine l = true :=
  List.forall_mem_cons.mpr ⟨beq_self_eq_true l, h⟩

theorem EngineReports.swapStaged (l : LaneId) (s : State) : EngineReports l s (swapStaged l s) :=
  ⟨_, ofEngine_swapReports _, reported_swapStaged l s⟩

theorem EngineReports.beginOneShot (l : LaneId) (s : State) : EngineReports l s (beginOneShot l s) := by
  unfold Machine.beginOneShot
  split <;> exact .of_reports rfl

theorem EngineReports.considerEntries (l : LaneId) (es : List Entry) (s : State) : EngineReports l s (considerEntries l es s) := by
  induction es generalizing s with
  | nil => exact .refl l s
  | cons e rest ih =>
    have passes {u : State} (hu : u.reports = s.reports) : EngineReports l s (Machine.considerEntries l rest u) :=
      EngineReports.trans (.of_reports hu) (ih u)
    simp only [Machine.considerEntries]
    split
    · split
      case h_1 => exact passes rfl
      case h_2 => exact .ite (passes rfl) (.of_reports rfl)
      case h_3 => exact .of_reports rfl
      case h_4 => exact .ite (passes rfl) (.of_reports rfl)
    · exact passes rfl

theorem EngineReports.chooseIn (l : LaneId) (rounds : Nat) (s : State) : EngineReports l s (chooseIn rounds l s) := by
  induction rounds generalizing s with
  | zero => exact .refl l s
  | succ n ih =>
    rw [chooseIn_succ rfl]
    have ended (u : State) : EngineReports l u (Machine.chooseIn n l (endRound l u)) :=
      EngineReports.trans ⟨_, ofEngine_swapReports _, by rw [Reported, endRound_eq rfl]⟩ (ih _)
    have step (u : State) : EngineReports l u (chooseFrom n l (s.lane l) u) :=
      .ite (.refl l u) (.ite (.beginOneShot l u) (.ite (ended u) (.refl l u)))
    exact .ite (.beginOneShot l s) (.trans (.ite (.considerEntries l _ s) (.refl l s)) (step _))

/-- What the condition of the lane makes of an ending is reported by the lane engine alone (R53, R131). -/
theorem EngineReports.afterEnding (l : LaneId) (t : Transaction) (o : TxOutcome) (followUp : Bool) (s : State) :
    EngineReports l s (afterEnding l t o followUp s) := by
  have faulted (cause : Cause) : EngineReports l s (enterFaulted l cause s) :=
    ⟨_, ofEngine_laneChange (ofEngine_completions _ _), reported_enterFaulted l cause s⟩
  refine .ite (.of_reports rfl) (.ite (faulted _) (.ite (faulted _) ?_))
  split
  · exact EngineReports.trans (.ite (.swapStaged l s) (.refl l s)) (.chooseIn l 3 _)
  · exact ⟨_, ofEngine_laneChange (ofEngine_swapReports _), reported_enterHalted_resetRound l _ s⟩
  · exact .ite (.refl l s) (.of_reports rfl)
  all_goals exact .refl l s

theorem eq_followsUp (h : followUp = true ↔ FollowsUp t o) : followUp = t.followsUp o :=
  Bool.eq_iff_iff.mpr (h.trans (t.followsUp_eq_true_iff o).symm)

/-- Settles O42: the stages hand over their reports in order, and what follows them those of the lane engine. -/
theorem endingReportsFollowTheStages : Obligations.EndingReportsFollowTheStages := by
  intro s l c t o cell bit followUp h hf
  obtain ⟨v, x, hexec, -, hreports⟩ := h.exec_eq_afterEnding
  obtain ⟨more, engine, behind⟩ := EngineReports.afterEnding l t o (t.followsUp o) v
  exact ⟨_, hexec, more, engine, eq_followsUp hf ▸ hreports.append behind⟩

/-! ## The record of the slot called -/

theorem SlotRecord.fed_of_not_published {r : SlotRecord} (h : ∀ p, r ≠ .published p) (mode : RouteMode) (data : List Byte) :
    r.fed mode data = r := by
  cases r with
  | published p => exact absurd rfl (h p)
  | undefined | polled | contended => rfl

/-- Routes feed published slots alone (R106, R111). -/
theorem slot_feedRoutes_of_not_published {data : List Byte} (h : ∀ p, s.slot q ≠ .published p) :
    (feedRoutes ref data s).slot q = s.slot q :=
  List.foldlRecOn (motive := fun u : State => u.slot q = s.slot q) _ _ rfl fun u hu y _ => by
    rw [slot_copyRoute, hu, SlotRecord.fed_of_not_published h, ite_self]

/-- A polled record behind an ending (R8, R9, R12 to R14). -/
def PolledRec.ended (r : PolledRec) (o : TxOutcome) (d : Delivery) : PolledRec :=
  match o with
  | .done => PolledRec.accept { r with lastOutcome := some o } d
  | .noResponse => PolledRec.missed { r with lastOutcome := some o }
  | _ => { r with lastOutcome := some o, skipCount := if r.presence = .absent then 0 else r.skipCount }

/-- A contended record behind an ending, its backlog settled (R8, R9, R15, R16). -/
def ContendedRec.ended (r : ContendedRec) (o : TxOutcome) (d : Delivery) (backlog : Bool) : ContendedRec :=
  match o with
  | .done => ContendedRec.accept { r with lastOutcome := some o } d backlog
  | _ => { r with lastOutcome := some o, backlog }

/-- The routes are fed behind the record, which they leave alone (R9, R111). -/
theorem slot_feedRoutes_settled {x : SlotRecord} {data : List Byte} (slots : u.slots = (s.setSlot ref x).slots)
    (called : ∀ p, x ≠ .published p) : (feedRoutes ref data u).slot ref = x := by
  have settled : u.slot ref = x := (State.slot_of_slots slots ref).trans (State.slot_setSlot_self ..)
  rw [slot_feedRoutes_of_not_published (by rwa [settled]), settled]

theorem slot_takeEnding_polled {r : PolledRec} (hr : s.slot ref = .polled r) :
    (takeEnding ref o d p followUp s).slot ref = .polled (r.ended o d) := by
  simp only [takeEnding, hr, endPolled]
  cases o with
  | done => exact slot_feedRoutes_settled ((slots_report_ite ..).trans (slots_report_ite ..)) nofun
  | noResponse =>
    rw [missPolled_eq]
    exact (State.slot_of_slots (slots_report_ite ..) ref).trans (State.slot_setSlot_self ..)
  | _ => exact State.slot_setSlot_self ..

theorem slot_takeEnding_contended {r : ContendedRec} (hr : s.slot ref = .contended r) :
    (takeEnding ref o d p followUp s).slot ref = .contended (r.ended o d (settledBacklog r.backlog o p followUp)) := by
  simp only [takeEnding, hr, endContended]
  cases o with
  | done => exact slot_feedRoutes_settled (slots_report_ite ..) nofun
  | _ => exact State.slot_setSlot_self ..

theorem slot_takeEnding_published {r : PublishedRec} (hr : s.slot ref = .published r) :
    (takeEnding ref o d p followUp s).slot ref = .published { r with lastOutcome := some o } := by
  simp only [takeEnding, hr, State.slot_setSlot_self]

/-- A choice skips entries of polled slots alone (R14). -/
theorem SkippedOnly.eq_of_not_polled {old new : SlotRecord} (h : SkippedOnly l q old new) (other : ∀ r, old ≠ .polled r) :
    new = old := by
  rcases h with h | ⟨-, r, -, h, -⟩
  · exact h
  · exact absurd h (other r)

/-- Settles O44: the Slot Table settles the record, and no choice skips an entry of its slot. -/
theorem contendedAndPublishedEndings : Obligations.ContendedAndPublishedEndings := by
  intro s l c t o cell bit followUp h hf
  obtain ⟨u, v, hexec, hslots, -, skipped⟩ := h.exec_eq_skips
  have skipped := skipped ⟨l, t.slot⟩
  have slot := State.slot_of_slots hslots ⟨l, t.slot⟩
  refine ⟨u, hexec, fun r hr => ?_, fun p hp => ?_⟩
  · rw [slot_takeEnding_contended (slot.trans hr)] at skipped
    rw [skipped.eq_of_not_polled nofun, settledBacklog_eq, ← eq_followsUp hf]
    cases o <;> rfl
  · rw [slot_takeEnding_published (slot.trans hp)] at skipped
    exact skipped.eq_published

/-- What the condition makes of an ending leaves every record, where no choice is made (R53). -/
theorem slots_afterEnding (h : (s.lane l).condition ≠ .running ∨ followUp = true ∨ o = .lineStuck ∨ 3 ≤ (s.lane l).readbackRun) :
    (afterEnding l t o followUp s).slots = s.slots := by
  have faulted (cause : Cause) : (enterFaulted l cause s).slots = s.slots := by rw [enterFaulted_eq cause rfl]; rfl
  unfold afterEnding
  split
  · rfl
  · split
    · exact faulted _
    · split
      · exact faulted _
      · rename_i follows run stuck
        have condition : (s.lane l).condition ≠ .running := by tauto
        split
        · exact absurd ‹_› condition
        · rw [enterHalted_eq rfl]; rfl
        · split <;> rfl
        all_goals rfl

/-- Otherwise the choice of the next transaction is made (R53, R87). -/
theorem afterEnding_chooses (running : (s.lane l).condition = .running) (follows : followUp = false) (stuck : o ≠ .lineStuck)
    (run : ¬ 3 ≤ (s.lane l).readbackRun) : afterEnding l t o followUp s = choose l (swapIfEmpty l s) := by
  rw [follows]
  exact (afterEnding_acts run stuck running).1 rfl

theorem slots_swapIfEmpty (l : LaneId) (s : State) : (swapIfEmpty l s).slots = s.slots := by
  unfold swapIfEmpty
  split
  · exact slots_swapStaged l s
  · rfl

theorem transaction_swapIfEmpty (l : LaneId) (s : State) : ((swapIfEmpty l s).lane l).transaction = (s.lane l).transaction := by
  unfold swapIfEmpty
  split
  · rw [State.lane_swapStaged]
    rfl
  · rfl

/-- Settles O43: the Slot Table settles the record, and what follows leaves it but for a choice. -/
theorem polledSlotsTrackTheirResponder : Obligations.PolledSlotsTrackTheirResponder := by
  intro s l c t o cell bit r h hr misses expected L stays
  obtain ⟨x, hexec⟩ := h.exec_eq
  have ending : (s.ending l t x).lane l = { L with transaction := some t, line := x } := s.lane_setLane_self ..
  rw [endTransaction_eq_afterEnding (by rw [ending])] at hexec
  generalize hw : endingStages l t o cell bit (s.ending l t x) = w at hexec
  have lane : w.lane l = (L.onLine fun _ => x).ended t o cell bit := by
    rw [← hw, lane_endingStages, ending]
    rfl
  have record : w.slot ⟨l, t.slot⟩ = .polled expected := by
    have taken : w.slot ⟨l, t.slot⟩ = .polled (r.ended o t.delivery) := by
      rw [← hw, State.slot_of_slots (slots_endingStages ..)]
      exact slot_takeEnding_polled (s := settleLine l o (s.ending l t x)) hr
    rw [taken]
    cases o <;> rfl
  have condition : (w.lane l).condition = L.condition := by rw [lane]; rfl
  have run : 3 ≤ (w.lane l).readbackRun ↔ o = .readbackError ∧ 2 ≤ L.readbackRun := by
    rw [lane]
    exact Lane.three_le_readbackRun_ended _
  refine ⟨_, hexec, fun hs => ?_, fun hs => ⟨swapIfEmpty l w, ?_, ?_, ?_⟩⟩
  · rw [State.slot_of_slots (slots_afterEnding ?_), record]
    rwa [condition, run, t.followsUp_eq_true_iff]
  · obtain ⟨running, follows, stuck, faults⟩ : L.condition = .running ∧ ¬ FollowsUp t o ∧ o ≠ .lineStuck
        ∧ ¬ (o = .readbackError ∧ 2 ≤ L.readbackRun) := by simpa only [stays, not_or, not_not] using hs
    exact afterEnding_chooses (condition.trans running) (Bool.eq_false_iff.mpr (mt (t.followsUp_eq_true_iff o).mp follows)) stuck
      (mt run.mp faults)
  · rw [State.slot_of_slots (slots_swapIfEmpty l w), record]
  · rw [transaction_swapIfEmpty, lane]
    rfl

end Sys2Proof.Machine
end
